-- ==== Sys2Proof/Word.lean ====
section
/-! DEFINITION. The two word types of the block (`00_scope.md` R5, R6): a byte is 8 bits, a word is 16 bits. -/

namespace Sys2Proof

/-- A byte: 8 bits (`REG_BITS`, `PORT_DATA_BITS`, a memory cell). -/
abbrev Byte := BitVec 8

/-- A word: 16 bits (`ADDR_BITS`: PC, SP, a register pair, a memory address). -/
abbrev Word := BitVec 16

end Sys2Proof
end

