-- ==== Sys2Proof/Machine/Bytes.lean ====
section
/-! DEFINITION. The two bytes of a word (`00_scope.md` R6: `a ++ b` has a in the high bits; `20_memory.md` R46). -/

namespace Sys2Proof.Machine

/-- `high ++ low`, the word `256 * high + low`. -/
def wordOf (high low : Byte) : Word := high ++ low

/-- The high byte of a word, `v[15:8]`. -/
def highByte (w : Word) : Byte := (w >>> 8).setWidth 8

/-- The low byte of a word, `v[7:0]`. -/
def lowByte (w : Word) : Byte := w.setWidth 8

end Sys2Proof.Machine
end

