-- ==== Sys2Proof/Machine/Registers.lean ====
section
/-! DEFINITION. The component types of State: flags, run state, display digits, interrupt-extension record,
and the reset values of the CPU as one record (`10_state.md`). -/

namespace Sys2Proof.Machine

/-- The five one-bit flags (`10_state.md` R14). -/
structure Flags where
  /-- zero -/
  z : Bool
  /-- sign -/
  s : Bool
  /-- parity, true for even -/
  p : Bool
  /-- carry -/
  cy : Bool
  /-- auxiliary carry -/
  ac : Bool
deriving DecidableEq, Repr

/-- The run state (`10_state.md` R18). -/
inductive RunState where
  | running
  | halted
  | stopped
deriving DecidableEq, Repr

/-- The display digit buffer `digit[0..5]` (`10_state.md` R23). -/
structure Digits where
  d0 : Byte
  d1 : Byte
  d2 : Byte
  d3 : Byte
  d4 : Byte
  d5 : Byte
deriving DecidableEq, Repr

/-- The state that the interrupt extension adds (`60_exceptions.md` R228). -/
structure IntExt where
  /-- `int_pending`: none, or the restart number of the latched request. -/
  pending : Option (Fin 8)
  /-- `ei_shadow` (R230). -/
  eiShadow : Bool
deriving DecidableEq, Repr

/-- `RESET_REGS`: the power-on values of A, B, C, D, E, H, L, SP and the five flags (`00_scope.md` R5, D12). -/
structure ResetRegs where
  a : Byte
  b : Byte
  c : Byte
  d : Byte
  e : Byte
  h : Byte
  l : Byte
  sp : Word
  flags : Flags
deriving DecidableEq, Repr

end Sys2Proof.Machine
end

