-- ==== Sys2Proof/Config.lean ====
section
/-! DEFINITION. The configuration layer: the parameter types and the free values of the block (`00_scope.md` R5).
The parameters that the spec decides have their values in `Sys2Proof/Machine/Params.lean`, in this same namespace. -/

namespace Sys2Proof.Config

/-- The candidate rules for AC after ANA / ANI, the parameter `AND_AC_RULE` (`42_logical.md` R150, D19). -/
inductive AndAcRule where
  /-- AC is bit 3 of the OR of the two operands (the decided value). -/
  | orBit3
  /-- AC is cleared. -/
  | zero
  /-- AC is set. -/
  | one
deriving DecidableEq, Repr

/-- The unit behind a memory-mapped I/O window (`20_memory.md` R41, R44). -/
inductive MmioDevice where
  | display
  | keyboard
deriving DecidableEq, Repr

/-- One memory-mapped I/O window, an element of the parameter `MMIO_WINDOWS` (`20_memory.md` R41, R44). -/
structure MmioWindow where
  /-- the first address -/
  base : Nat
  /-- the length in bytes -/
  size : Nat
  device : MmioDevice
deriving DecidableEq, Repr

/-- Which digit a write at an offset of a display window addresses.
FREE VALUE: R44 says that the write calls writeDigit and not with which index; log 15. -/
opaque displayWindowDigit : Nat → Fin 6

/-- What a read at an offset of a display window gives, for the digit buffer it finds.
FREE VALUE: R44 states no result for such a read; log 15. -/
opaque displayWindowByte : Machine.Digits → Nat → Byte

/-- `KEY_PATTERN`: the matrix byte the scanner answers for a key code, total on 8-bit codes.
FREE VALUE: the spec leaves it open with no default (`60_exceptions.md` R246, D10); log 4. -/
opaque keyPattern : Byte → Byte

/-- `KEY_IDLE`: the byte the scanner answers when no key is pressed.
FREE VALUE: the spec leaves it open with no default (`60_exceptions.md` R246, D10); log 4. -/
opaque keyIdle : Byte

end Sys2Proof.Config
end

