-- ==== Sys2Proof/Machine/Params.lean ====
section
/-! DEFINITION. The parameters of the block at the values the spec decides (`00_scope.md` R5, `92_eei_decisions.md`).
They are the spec's own decisions, not measured on the hardware: log 6. -/

namespace Sys2Proof.Config

open Sys2Proof.Machine

/-- `ROM_BASE` (D5). -/
def romBase : Nat := 0x0000

/-- `ROM_SIZE` (D5). -/
def romSize : Nat := 0x0800

/-- `MMIO_WINDOWS`: the memory-mapped I/O windows, none (D5, D7); log 15. -/
def mmioWindows : List MmioWindow := []

/-- `PORT_KBD`: the port whose IN reads the key scanner (D8). -/
def portKbd : Byte := 0x06

/-- `PORT_DISP_SEG`: the port whose OUT latches the segment pattern (D8). -/
def portDispSeg : Byte := 0x06

/-- `PORT_DISP_SCAN`: the port whose OUT latches the digit-select mask (D8). -/
def portDispScan : Byte := 0x07

/-- `SCAN_ACTIVE_HIGH`: the polarity of a digit-select bit (D9). -/
def scanActiveHigh : Bool := true

/-- `SCAN_BIT_OF_DIGIT`: which bit of the scan latch selects digit i (D9). -/
def scanBitOfDigit (i : Fin 6) : Nat := i.val

/-- `PORT_SHARED`: whether the input and output latches are one array (D11). -/
def portShared : Bool := false

/-- `AND_AC_RULE` (D19). -/
def andAcRule : AndAcRule := .orBit3

/-- `ILLEGAL_SET`: the first bytes that are no instruction (`30_encoding.md` R77, D2). -/
def illegalSet : List Byte :=
  [0x08, 0x10, 0x18, 0x20, 0x28, 0x30, 0x38, 0xCB, 0xD9, 0xDD, 0xED, 0xFD]

/-- `RESET_PC`: the power-on vector (`70_reset_and_hazards.md` R272, D12). -/
def resetPc : Word := 0x0000

/-- `RESET_REGS` at its default (`10_state.md` R26, D12). DESIGN CHOICE: the spec leaves it open; log 1. -/
def resetRegs : ResetRegs :=
  { a := 0x00, b := 0x00, c := 0x00, d := 0x00, e := 0x00, h := 0x00, l := 0x00, sp := 0x0000,
    flags := { z := false, s := false, p := false, cy := false, ac := false } }

/-- `MEM_INIT` at its default: what an address nothing has written reads as (D14). DESIGN CHOICE; log 2. -/
def memInit : Byte := 0x00

/-- `PORT_INIT` at its default: what a port latch nothing has written holds (D14). DESIGN CHOICE; log 3. -/
def portInit : Byte := 0x00

/-- `INT_INPUT`: whether an interrupt request input exists (D16); log 5. -/
def intInput : Bool := false

end Sys2Proof.Config
end

