-- ==== Sys2Proof/Syntax.lean ====
section
/-! DEFINITION. The instructions as data: one constructor of `Instr` for every mnemonic of `spec/opcode_table.json`
(78 instructions and the table's ILLEGAL rows), with the operand types of `30_encoding.md` R72 to R75. -/

namespace Sys2Proof

/-- The seven general registers (`30_encoding.md` R72; code 110 is no register). -/
inductive Reg where
  | b | c | d | e | h | l | a
deriving DecidableEq, Repr

/-- An 8-bit operand of codes `ddd` / `sss`: a register, or M, the memory byte at address HL (R72). -/
inductive Operand8 where
  | reg (r : Reg)
  | m
deriving DecidableEq, Repr

/-- The pairs of LXI, DAD, INX, DCX (R73). -/
inductive RegPair where
  | bc | de | hl | sp
deriving DecidableEq, Repr

/-- The pairs of PUSH and POP (R73): code 11 is PSW, A with the flag byte. -/
inductive StackPair where
  | bc | de | hl | psw
deriving DecidableEq, Repr

/-- The pairs of STAX and LDAX (R73): BC and DE only. -/
inductive IndexPair where
  | bc | de
deriving DecidableEq, Repr

/-- The conditions `ccc` (R74). -/
inductive Cond where
  | nz | z | nc | c | po | pe | p | m
deriving DecidableEq, Repr

/-- The instruction set (`30_encoding.md` R76). Immediates are already assembled (R75). `inp` and `outp` are IN and OUT. -/
inductive Instr where
  -- data transfer, 40_data_transfer.md
  | mov (dst src : Operand8)
  | mvi (dst : Operand8) (d8 : Byte)
  | lxi (rp : RegPair) (d16 : Word)
  | lda (addr : Word)
  | sta (addr : Word)
  | lhld (addr : Word)
  | shld (addr : Word)
  | ldax (rp : IndexPair)
  | stax (rp : IndexPair)
  | xchg
  -- arithmetic, 41_arithmetic.md
  | add (src : Operand8)
  | adi (d8 : Byte)
  | adc (src : Operand8)
  | aci (d8 : Byte)
  | sub (src : Operand8)
  | sui (d8 : Byte)
  | sbb (src : Operand8)
  | sbi (d8 : Byte)
  | inr (dst : Operand8)
  | dcr (dst : Operand8)
  | inx (rp : RegPair)
  | dcx (rp : RegPair)
  | dad (rp : RegPair)
  | daa
  -- logical, compare, rotate, complement and carry, 42_logical.md
  | ana (src : Operand8)
  | ani (d8 : Byte)
  | xra (src : Operand8)
  | xri (d8 : Byte)
  | ora (src : Operand8)
  | ori (d8 : Byte)
  | cmp (src : Operand8)
  | cpi (d8 : Byte)
  | rlc
  | rrc
  | ral
  | rar
  | cma
  | cmc
  | stc
  -- branch, 43_branch.md
  | jmp (addr : Word)
  | jnz (addr : Word)
  | jz (addr : Word)
  | jnc (addr : Word)
  | jc (addr : Word)
  | jpo (addr : Word)
  | jpe (addr : Word)
  | jp (addr : Word)
  | jm (addr : Word)
  | call (addr : Word)
  | cnz (addr : Word)
  | cz (addr : Word)
  | cnc (addr : Word)
  | cc (addr : Word)
  | cpo (addr : Word)
  | cpe (addr : Word)
  | cp (addr : Word)
  | cm (addr : Word)
  | ret
  | rnz
  | rz
  | rnc
  | rc
  | rpo
  | rpe
  | rp
  | rm
  | rst (n : Fin 8)
  | pchl
  -- stack, I/O and machine control, 44_stack_io_control.md
  | push (rp : StackPair)
  | pop (rp : StackPair)
  | xthl
  | sphl
  | inp (port : Byte)
  | outp (port : Byte)
  | ei
  | di
  | hlt
  | nop
  -- the twelve unassigned first bytes, 30_encoding.md R77 and 60_exceptions.md R220
  | illegal (op : Byte)
deriving DecidableEq, Repr

end Sys2Proof
end

