-- ==== Sys2Proof/WellFormed.lean ====
section
/-! DEFINITION. Which terms of `Instr` are instructions (`30_encoding.md` R72, R76, R77). -/

namespace Sys2Proof

/-- A term is well formed unless it is "MOV M,M" (its slot 0x76 is HLT, R101 to R103 and R211) or an `illegal` whose
byte is an assigned opcode (R77). Every other operand value is legal (R78). -/
def Instr.wf : Instr → Bool
  | .mov dst src => !(decide (dst = .m) && decide (src = .m))
  | .illegal op => Config.illegalSet.contains op
  | .mvi _ _ | .lxi _ _ | .lda _ | .sta _ | .lhld _ | .shld _ | .ldax _ | .stax _ | .xchg => true
  | .add _ | .adi _ | .adc _ | .aci _ | .sub _ | .sui _ | .sbb _ | .sbi _ => true
  | .inr _ | .dcr _ | .inx _ | .dcx _ | .dad _ | .daa => true
  | .ana _ | .ani _ | .xra _ | .xri _ | .ora _ | .ori _ | .cmp _ | .cpi _ => true
  | .rlc | .rrc | .ral | .rar | .cma | .cmc | .stc => true
  | .jmp _ | .jnz _ | .jz _ | .jnc _ | .jc _ | .jpo _ | .jpe _ | .jp _ | .jm _ => true
  | .call _ | .cnz _ | .cz _ | .cnc _ | .cc _ | .cpo _ | .cpe _ | .cp _ | .cm _ => true
  | .ret | .rnz | .rz | .rnc | .rc | .rpo | .rpe | .rp | .rm | .rst _ | .pchl => true
  | .push _ | .pop _ | .xthl | .sphl | .inp _ | .outp _ | .ei | .di | .hlt | .nop => true

end Sys2Proof
end

