-- ==== Sys2Proof/Decode.lean ====
section
/-! DEFINITION. The decoder and the encoder, from the encoding tables of `30_encoding.md` (R70 to R80). -/

namespace Sys2Proof

/-! ### Fields of the opcode byte (R71) -/

/-- Bits 7:6, `grp`. -/
def fieldGrp (op : Byte) : Fin 4 := ⟨op.toNat / 64, by have := op.isLt; omega⟩

/-- Bits 5:3: `ddd`, `aaa`, `ccc`, `nnn`, or `rp` with a sub-operation bit. -/
def fieldMid (op : Byte) : Fin 8 := ⟨op.toNat / 8 % 8, by omega⟩

/-- Bits 2:0: `sss` or a sub-operation code. -/
def fieldLow (op : Byte) : Fin 8 := ⟨op.toNat % 8, by omega⟩

/-- The 16-bit immediate of a 3-byte instruction, `byte3 ++ byte2` (R75). -/
def imm16 (low high : Byte) : Word := Machine.wordOf high low

/-- Register codes (R72). -/
def operandOf : Fin 8 → Operand8
  | 0 => .reg .b
  | 1 => .reg .c
  | 2 => .reg .d
  | 3 => .reg .e
  | 4 => .reg .h
  | 5 => .reg .l
  | 6 => .m
  | 7 => .reg .a

/-! ### Rows of the opcode map -/

/-- What the opcode byte alone decides (R70, R79, R80): a one-byte instruction, or one that takes a second byte, or one
that takes a second and a third (assembled into `imm16`). -/
inductive Shape where
  | one (i : Instr)
  | two (build : Byte → Instr)
  | three (build : Word → Instr)

/-- `10aaasss` (R75). -/
def aluRow (aaa : Fin 8) (src : Operand8) : Instr :=
  match aaa with
  | 0 => .add src
  | 1 => .adc src
  | 2 => .sub src
  | 3 => .sbb src
  | 4 => .ana src
  | 5 => .xra src
  | 6 => .ora src
  | 7 => .cmp src

/-- `11aaa110` (R75). -/
def aluImmRow (aaa : Fin 8) (d8 : Byte) : Instr :=
  match aaa with
  | 0 => .adi d8
  | 1 => .aci d8
  | 2 => .sui d8
  | 3 => .sbi d8
  | 4 => .ani d8
  | 5 => .xri d8
  | 6 => .ori d8
  | 7 => .cpi d8

/-- `11ccc010` (`43_branch.md` R182). -/
def jumpRow (ccc : Fin 8) (addr : Word) : Instr :=
  match ccc with
  | 0 => .jnz addr
  | 1 => .jz addr
  | 2 => .jnc addr
  | 3 => .jc addr
  | 4 => .jpo addr
  | 5 => .jpe addr
  | 6 => .jp addr
  | 7 => .jm addr

/-- `11ccc100` (`43_branch.md` R184). -/
def callRow (ccc : Fin 8) (addr : Word) : Instr :=
  match ccc with
  | 0 => .cnz addr
  | 1 => .cz addr
  | 2 => .cnc addr
  | 3 => .cc addr
  | 4 => .cpo addr
  | 5 => .cpe addr
  | 6 => .cp addr
  | 7 => .cm addr

/-- `11ccc000` (`43_branch.md` R186). -/
def returnRow (ccc : Fin 8) : Instr :=
  match ccc with
  | 0 => .rnz
  | 1 => .rz
  | 2 => .rnc
  | 3 => .rc
  | 4 => .rpo
  | 5 => .rpe
  | 6 => .rp
  | 7 => .rm

/-- `00yyy001`: LXI and DAD (R76). -/
def lxiDadRow (mid : Fin 8) : Shape :=
  match mid with
  | 0 => .three (.lxi .bc)
  | 1 => .one (.dad .bc)
  | 2 => .three (.lxi .de)
  | 3 => .one (.dad .de)
  | 4 => .three (.lxi .hl)
  | 5 => .one (.dad .hl)
  | 6 => .three (.lxi .sp)
  | 7 => .one (.dad .sp)

/-- `00yyy010`: STAX, LDAX, SHLD, LHLD, STA, LDA (R76). -/
def indirectRow (mid : Fin 8) : Shape :=
  match mid with
  | 0 => .one (.stax .bc)
  | 1 => .one (.ldax .bc)
  | 2 => .one (.stax .de)
  | 3 => .one (.ldax .de)
  | 4 => .three .shld
  | 5 => .three .lhld
  | 6 => .three .sta
  | 7 => .three .lda

/-- `00yyy011`: INX and DCX (R76). -/
def inxDcxRow (mid : Fin 8) : Instr :=
  match mid with
  | 0 => .inx .bc
  | 1 => .dcx .bc
  | 2 => .inx .de
  | 3 => .dcx .de
  | 4 => .inx .hl
  | 5 => .dcx .hl
  | 6 => .inx .sp
  | 7 => .dcx .sp

/-- `00yyy111`: rotates, DAA, CMA, STC, CMC (R76). -/
def accumulatorRow (mid : Fin 8) : Instr :=
  match mid with
  | 0 => .rlc
  | 1 => .rrc
  | 2 => .ral
  | 3 => .rar
  | 4 => .daa
  | 5 => .cma
  | 6 => .stc
  | 7 => .cmc

/-- `11yyy001`: POP, RET, PCHL, SPHL (R76). -/
def popRow (op : Byte) (mid : Fin 8) : Instr :=
  match mid with
  | 0 => .pop .bc
  | 1 => .ret
  | 2 => .pop .de
  | 3 => .illegal op
  | 4 => .pop .hl
  | 5 => .pchl
  | 6 => .pop .psw
  | 7 => .sphl

/-- `11yyy011`: JMP, OUT, IN, XTHL, XCHG, DI, EI (R76). -/
def miscRow (op : Byte) (mid : Fin 8) : Shape :=
  match mid with
  | 0 => .three .jmp
  | 1 => .one (.illegal op)
  | 2 => .two .outp
  | 3 => .two .inp
  | 4 => .one .xthl
  | 5 => .one .xchg
  | 6 => .one .di
  | 7 => .one .ei

/-- `11yyy101`: PUSH, CALL (R76). -/
def pushRow (op : Byte) (mid : Fin 8) : Shape :=
  match mid with
  | 0 => .one (.push .bc)
  | 1 => .three .call
  | 2 => .one (.push .de)
  | 3 => .one (.illegal op)
  | 4 => .one (.push .hl)
  | 5 => .one (.illegal op)
  | 6 => .one (.push .psw)
  | 7 => .one (.illegal op)

/-- Rows 0x to 3x of the map (R76). -/
def decodeGroup0 (op : Byte) (mid low : Fin 8) : Shape :=
  match low with
  | 0 => .one (if mid = 0 then .nop else .illegal op)
  | 1 => lxiDadRow mid
  | 2 => indirectRow mid
  | 3 => .one (inxDcxRow mid)
  | 4 => .one (.inr (operandOf mid))
  | 5 => .one (.dcr (operandOf mid))
  | 6 => .two (.mvi (operandOf mid))
  | 7 => .one (accumulatorRow mid)

/-- Rows Cx to Fx of the map (R76). -/
def decodeGroup3 (op : Byte) (mid low : Fin 8) : Shape :=
  match low with
  | 0 => .one (returnRow mid)
  | 1 => .one (popRow op mid)
  | 2 => .three (jumpRow mid)
  | 3 => miscRow op mid
  | 4 => .three (callRow mid)
  | 5 => pushRow op mid
  | 6 => .two (aluImmRow mid)
  | 7 => .one (.rst mid)

/-- The opcode map (R76), total on bytes (R79): the bytes of `ILLEGAL_SET` first (R77), then by fields. -/
def decodeOpcode (op : Byte) : Shape :=
  if Config.illegalSet.contains op then .one (.illegal op)
  else
    match fieldGrp op with
    | 0 => decodeGroup0 op (fieldMid op) (fieldLow op)
    | 1 => .one (if op = 0x76 then .hlt else .mov (operandOf (fieldMid op)) (operandOf (fieldLow op)))
    | 2 => .one (aluRow (fieldMid op) (operandOf (fieldLow op)))
    | 3 => decodeGroup3 op (fieldMid op) (fieldLow op)

/-- Why a list of bytes is not decoded. The twelve illegal bytes are not among these: they decode to `Instr.illegal`. -/
inductive DecodeError where
  /-- the list is empty -/
  | noOpcode
  /-- the opcode takes more bytes than the list holds -/
  | truncated (op : Byte)
deriving DecidableEq, Repr

/-- The decoder's answer: an instruction and the bytes after it, or a rejection by name. -/
inductive Decoded where
  | instr (i : Instr) (rest : List Byte)
  | reject (e : DecodeError)
deriving DecidableEq, Repr

/-- An opcode's shape with the bytes after it, in ascending address order (R71). -/
def Shape.take (op : Byte) (rest : List Byte) : Shape → Decoded
  | .one i => .instr i rest
  | .two build =>
    match rest with
    | d8 :: rest => .instr (build d8) rest
    | [] => .reject (.truncated op)
  | .three build =>
    match rest with
    | low :: high :: rest => .instr (build (imm16 low high)) rest
    | _ => .reject (.truncated op)

/-- The decoder, total on any bytes. -/
def decode : List Byte → Decoded
  | [] => .reject .noOpcode
  | op :: rest => (decodeOpcode op).take op rest

/-- The decoder over an opcode-table word: bit 0 is the least significant bit of the first byte, the second byte is bits
15..8, the third bits 23..16; bits from `nbits` up are 0. -/
def decodeTableWord (nbits w : Nat) : Option Instr :=
  let v := w % 2 ^ nbits
  match decode [BitVec.ofNat 8 v, BitVec.ofNat 8 (v / 256), BitVec.ofNat 8 (v / 65536)] with
  | .instr i _ => some i
  | .reject _ => none

/-! ### The encoder -/

/-- Register codes (R72). -/
def operandCode : Operand8 → Nat
  | .reg .b => 0
  | .reg .c => 1
  | .reg .d => 2
  | .reg .e => 3
  | .reg .h => 4
  | .reg .l => 5
  | .m => 6
  | .reg .a => 7

/-- Pair codes of LXI, DAD, INX, DCX (R73). -/
def pairCode : RegPair → Nat
  | .bc => 0
  | .de => 1
  | .hl => 2
  | .sp => 3

/-- Pair codes of PUSH, POP (R73). -/
def stackPairCode : StackPair → Nat
  | .bc => 0
  | .de => 1
  | .hl => 2
  | .psw => 3

/-- Pair codes of STAX, LDAX, one bit (R73). -/
def indexPairCode : IndexPair → Nat
  | .bc => 0
  | .de => 1

/-- Condition codes (R74). -/
def condCode : Cond → Nat
  | .nz => 0
  | .z => 1
  | .nc => 2
  | .c => 3
  | .po => 4
  | .pe => 5
  | .p => 6
  | .m => 7

/-- Format F1: the opcode alone (R71). -/
def encF1 (op : Nat) : List Byte := [BitVec.ofNat 8 op]

/-- Format F2: opcode, data byte or port number (R71). -/
def encF2 (op : Nat) (d8 : Byte) : List Byte := [BitVec.ofNat 8 op, d8]

/-- Format F3: opcode, low byte, high byte (R71). -/
def encF3 (op : Nat) (v : Word) : List Byte := [BitVec.ofNat 8 op, Machine.lowByte v, Machine.highByte v]

/-- The bytes of an instruction in ascending address order, from the patterns of R71 and the fixed bytes of R76. -/
def encode : Instr → List Byte
  | .mov dst src => encF1 (0x40 + 8 * operandCode dst + operandCode src)
  | .mvi dst d8 => encF2 (0x06 + 8 * operandCode dst) d8
  | .lxi rp d16 => encF3 (0x01 + 16 * pairCode rp) d16
  | .lda addr => encF3 0x3A addr
  | .sta addr => encF3 0x32 addr
  | .lhld addr => encF3 0x2A addr
  | .shld addr => encF3 0x22 addr
  | .ldax rp => encF1 (0x0A + 16 * indexPairCode rp)
  | .stax rp => encF1 (0x02 + 16 * indexPairCode rp)
  | .xchg => encF1 0xEB
  | .add src => encF1 (0x80 + operandCode src)
  | .adi d8 => encF2 0xC6 d8
  | .adc src => encF1 (0x88 + operandCode src)
  | .aci d8 => encF2 0xCE d8
  | .sub src => encF1 (0x90 + operandCode src)
  | .sui d8 => encF2 0xD6 d8
  | .sbb src => encF1 (0x98 + operandCode src)
  | .sbi d8 => encF2 0xDE d8
  | .inr dst => encF1 (0x04 + 8 * operandCode dst)
  | .dcr dst => encF1 (0x05 + 8 * operandCode dst)
  | .inx rp => encF1 (0x03 + 16 * pairCode rp)
  | .dcx rp => encF1 (0x0B + 16 * pairCode rp)
  | .dad rp => encF1 (0x09 + 16 * pairCode rp)
  | .daa => encF1 0x27
  | .ana src => encF1 (0xA0 + operandCode src)
  | .ani d8 => encF2 0xE6 d8
  | .xra src => encF1 (0xA8 + operandCode src)
  | .xri d8 => encF2 0xEE d8
  | .ora src => encF1 (0xB0 + operandCode src)
  | .ori d8 => encF2 0xF6 d8
  | .cmp src => encF1 (0xB8 + operandCode src)
  | .cpi d8 => encF2 0xFE d8
  | .rlc => encF1 0x07
  | .rrc => encF1 0x0F
  | .ral => encF1 0x17
  | .rar => encF1 0x1F
  | .cma => encF1 0x2F
  | .cmc => encF1 0x3F
  | .stc => encF1 0x37
  | .jmp addr => encF3 0xC3 addr
  | .jnz addr => encF3 (0xC2 + 8 * condCode .nz) addr
  | .jz addr => encF3 (0xC2 + 8 * condCode .z) addr
  | .jnc addr => encF3 (0xC2 + 8 * condCode .nc) addr
  | .jc addr => encF3 (0xC2 + 8 * condCode .c) addr
  | .jpo addr => encF3 (0xC2 + 8 * condCode .po) addr
  | .jpe addr => encF3 (0xC2 + 8 * condCode .pe) addr
  | .jp addr => encF3 (0xC2 + 8 * condCode .p) addr
  | .jm addr => encF3 (0xC2 + 8 * condCode .m) addr
  | .call addr => encF3 0xCD addr
  | .cnz addr => encF3 (0xC4 + 8 * condCode .nz) addr
  | .cz addr => encF3 (0xC4 + 8 * condCode .z) addr
  | .cnc addr => encF3 (0xC4 + 8 * condCode .nc) addr
  | .cc addr => encF3 (0xC4 + 8 * condCode .c) addr
  | .cpo addr => encF3 (0xC4 + 8 * condCode .po) addr
  | .cpe addr => encF3 (0xC4 + 8 * condCode .pe) addr
  | .cp addr => encF3 (0xC4 + 8 * condCode .p) addr
  | .cm addr => encF3 (0xC4 + 8 * condCode .m) addr
  | .ret => encF1 0xC9
  | .rnz => encF1 (0xC0 + 8 * condCode .nz)
  | .rz => encF1 (0xC0 + 8 * condCode .z)
  | .rnc => encF1 (0xC0 + 8 * condCode .nc)
  | .rc => encF1 (0xC0 + 8 * condCode .c)
  | .rpo => encF1 (0xC0 + 8 * condCode .po)
  | .rpe => encF1 (0xC0 + 8 * condCode .pe)
  | .rp => encF1 (0xC0 + 8 * condCode .p)
  | .rm => encF1 (0xC0 + 8 * condCode .m)
  | .rst n => encF1 (0xC7 + 8 * n.val)
  | .pchl => encF1 0xE9
  | .push rp => encF1 (0xC5 + 16 * stackPairCode rp)
  | .pop rp => encF1 (0xC1 + 16 * stackPairCode rp)
  | .xthl => encF1 0xE3
  | .sphl => encF1 0xF9
  | .inp port => encF2 0xDB port
  | .outp port => encF2 0xD3 port
  | .ei => encF1 0xFB
  | .di => encF1 0xF3
  | .hlt => encF1 0x76
  | .nop => encF1 0x00
  | .illegal op => [op]

end Sys2Proof
end

