-- ==== Sys2Proof/Machine/State.lean ====
section
/-! DEFINITION. The state of one Session (`10_state.md` R10 to R26), the stop reasons, and the state after reset. -/

namespace Sys2Proof.Machine

/-- Memory as the listed bytes, addresses strictly rising, none equal to what an unlisted address reads as. -/
abbrev Memory := List Host.Cell

/-- An array of 256 port latches, held the same way. -/
abbrev PortLatches := List Host.Cell

/-- The whole state of the block; nothing else is state (`10_state.md` R25). -/
structure State where
  /-- A, the accumulator (R10) -/
  a : Byte
  /-- B (R10) -/
  b : Byte
  /-- C (R10) -/
  c : Byte
  /-- D (R10) -/
  d : Byte
  /-- E (R10) -/
  e : Byte
  /-- H (R10) -/
  h : Byte
  /-- L (R10) -/
  l : Byte
  /-- SP (R12) -/
  sp : Word
  /-- PC (R13) -/
  pc : Word
  /-- Z, S, P, CY, AC (R14) -/
  flags : Flags
  /-- the run state (R18) -/
  run : RunState
  /-- INTE (R19) -/
  inte : Bool
  /-- the 65536 bytes of memory (R21) -/
  mem : Memory
  /-- the input latches `pin[0..255]` (R22) -/
  pin : PortLatches
  /-- the output latches `pout[0..255]` (R22) -/
  pout : PortLatches
  /-- the display digit buffer (R23) -/
  digits : Digits
  /-- the active key: none when `key_pressed` = 0, else `key_code` (R24; log 13) -/
  key : Option Byte
  /-- `int_pending` and `ei_shadow`; absent when `INT_INPUT` = false (R25, `60_exceptions.md` R228; log 5) -/
  intExt : Option IntExt
deriving DecidableEq, Repr

/-- Reasons for which a step could stop with a fault: the two error kinds of the source that are no CPU exception and
"unreachable by construction" (`20_memory.md` R54, `60_exceptions.md` R222). No instruction, tick or host operation of
this model raises either one; log 14. -/
inductive Fault where
  /-- Raised by nothing: every address is reduced modulo 2^16 (R54). Safe. -/
  | addressOutOfRange
  /-- Raised by nothing: every port number is one byte (R54). Safe. -/
  | portOutOfRange
deriving DecidableEq, Repr

/-- Reasons for which the model gives an operation no meaning. No tick raises any of them. -/
inductive Refusal where
  /-- An instruction whose meaning is not written yet, by its mnemonic. Raised by no arm of `exec`. Safe. -/
  | notModelled (mnemonic : String)
  /-- Raised by a host operation on a freed session: "a contract violation" (`60_exceptions.md` R262). Safe. -/
  | sessionFreed
  /-- Raised by the host operation requestInterrupt when there is no interrupt input (`60_exceptions.md` R227). Safe. -/
  | noInterruptInput
deriving DecidableEq, Repr

/-- The state after create, for given `RESET_REGS` and `INT_INPUT` (`10_state.md` R26, `70_reset_and_hazards.md` R270). -/
def State.powerOn (regs : ResetRegs) (intInput : Bool) : State :=
  { a := regs.a, b := regs.b, c := regs.c, d := regs.d, e := regs.e, h := regs.h, l := regs.l,
    sp := regs.sp, pc := Config.resetPc, flags := regs.flags,
    run := .running, inte := false,
    mem := [], pin := [], pout := [],
    digits := { d0 := 0x00, d1 := 0x00, d2 := 0x00, d3 := 0x00, d4 := 0x00, d5 := 0x00 },
    key := none,
    intExt := if intInput then some { pending := none, eiShadow := false } else none }

/-- The state after create on a machine that has an interrupt input or not, with `RESET_REGS` at its default
(`60_exceptions.md` R251). -/
def State.create (intInput : Bool) : State := State.powerOn Config.resetRegs intInput

/-- The machine right after reset: power-on with every parameter at its decided or default value (R26). -/
def State.reset : State := State.create Config.intInput

end Sys2Proof.Machine
end

