-- ==== Sys2Proof/Machine/Ops.lean ====
section
/-! DEFINITION. The named operations over memory, ports, display, keyboard, stack and control state
(`00_scope.md` R7, `20_memory.md`, `60_exceptions.md`). -/

namespace Sys2Proof.Machine

/-! ### Sparse byte arrays in canonical form -/

/-- The byte at key `k`; an unlisted key reads as `dflt`. -/
def Cells.get (dflt : Byte) : List Host.Cell → Nat → Byte
  | [], _ => dflt
  | (k', v) :: rest, k => if k' = k then v else Cells.get dflt rest k

/-- The list with key `k` holding `v`, keys kept rising. -/
def Cells.insert : List Host.Cell → Nat → Byte → List Host.Cell
  | [], k, v => [(k, v)]
  | (k', v') :: rest, k, v =>
    if k < k' then (k, v) :: (k', v') :: rest
    else if k = k' then (k, v) :: rest
    else (k', v') :: Cells.insert rest k v

/-- The list without key `k`. -/
def Cells.erase : List Host.Cell → Nat → List Host.Cell
  | [], _ => []
  | (k', v') :: rest, k => if k' = k then Cells.erase rest k else (k', v') :: Cells.erase rest k

/-- The array with `v` at key `k`: writing the default removes the entry. -/
def Cells.set (dflt : Byte) (m : List Host.Cell) (k : Nat) (v : Byte) : List Host.Cell :=
  if v = dflt then Cells.erase m k else Cells.insert m k v

/-- Keys strictly rising from `lo`, all below `bound`, no value equal to the default. -/
def Cells.wfFrom (dflt : Byte) (bound : Nat) : Nat → List Host.Cell → Bool
  | _, [] => true
  | lo, (k, v) :: rest => decide (lo ≤ k) && decide (k < bound) && decide (v ≠ dflt) && Cells.wfFrom dflt bound (k + 1) rest

/-- The canonical form of memory: equal memories are equal data. -/
def Memory.wf (m : Memory) : Bool := Cells.wfFrom Config.memInit 65536 0 m

/-- The canonical form of a latch array. -/
def PortLatches.wf (p : PortLatches) : Bool := Cells.wfFrom Config.portInit 256 0 p

/-! ### Key scanner and display (`60_exceptions.md` R240 to R246) -/

/-- `scanPort()` (R246). -/
def State.scanPort (s : State) : Byte :=
  match s.key with
  | some code => Config.keyPattern code
  | none => Config.keyIdle

/-- `digit[i]`. -/
def Digits.get (ds : Digits) (i : Fin 6) : Byte :=
  match i with
  | 0 => ds.d0
  | 1 => ds.d1
  | 2 => ds.d2
  | 3 => ds.d3
  | 4 => ds.d4
  | 5 => ds.d5

/-- `digit[i] <- pattern`. -/
def Digits.set (ds : Digits) (i : Fin 6) (pattern : Byte) : Digits :=
  match i with
  | 0 => { ds with d0 := pattern }
  | 1 => { ds with d1 := pattern }
  | 2 => { ds with d2 := pattern }
  | 3 => { ds with d3 := pattern }
  | 4 => { ds with d4 := pattern }
  | 5 => { ds with d5 := pattern }

/-- `writeDigit(i, p)` (R242). -/
def State.writeDigit (s : State) (i : Fin 6) (pattern : Byte) : State :=
  { s with digits := s.digits.set i pattern }

/-- `readDigit(i)` (R242). -/
def State.readDigit (s : State) (i : Fin 6) : Byte := s.digits.get i

/-- Whether a scan-latch value selects digit i (R240). -/
def digitSelected (scan : Byte) (i : Fin 6) : Bool :=
  scan.getLsbD (Config.scanBitOfDigit i) == Config.scanActiveHigh

/-- One round of the display update (R241): digit i takes the pattern when it is selected. -/
def refreshDigit (scan pattern : Byte) (s : State) (i : Fin 6) : State :=
  if digitSelected scan i then s.writeDigit i pattern else s

/-! ### The Bus (`20_memory.md` R41 to R45) -/

/-- Whether an address lies in a memory-mapped I/O window. -/
def windowCovers (w : Config.MmioWindow) (addr : Word) : Bool :=
  decide (w.base ≤ addr.toNat) && decide (addr.toNat < w.base + w.size)

/-- The memory-mapped I/O window of an address, if any, for a choice of `MMIO_WINDOWS`. -/
def windowIn (windows : List Config.MmioWindow) (addr : Word) : Option Config.MmioWindow :=
  windows.find? fun w => windowCovers w addr

/-- The three kinds of region (R41). -/
inductive Region where
  | rom
  | ram
  | mmio (window : Config.MmioWindow)
deriving DecidableEq, Repr

/-- The region of an address for a choice of `MMIO_WINDOWS`; total (R41). -/
def regionIn (windows : List Config.MmioWindow) (addr : Word) : Region :=
  match windowIn windows addr with
  | some w => .mmio w
  | none => if Config.romBase ≤ addr.toNat ∧ addr.toNat < Config.romBase + Config.romSize then .rom else .ram

/-- The region of an address (R41). -/
def regionOf (addr : Word) : Region := regionIn Config.mmioWindows addr

/-- A read forwarded by a window: the scanner answers in a keyboard window (R44). -/
def State.mmioRead (s : State) (w : Config.MmioWindow) (addr : Word) : Byte :=
  match w.device with
  | .keyboard => s.scanPort
  | .display => Config.displayWindowByte s.digits (addr.toNat - w.base)

/-- A write forwarded by a window: a digit is written in a display window (R44); no write reaches the keyboard (R245). -/
def State.mmioWrite (s : State) (w : Config.MmioWindow) (addr : Word) (v : Byte) : State :=
  match w.device with
  | .display => s.writeDigit (Config.displayWindowDigit (addr.toNat - w.base)) v
  | .keyboard => s

/-- Storing a byte whatever the region: what a RAM write does, and loadImage (`70_reset_and_hazards.md` R273). -/
def State.poke (s : State) (addr : Word) (v : Byte) : State :=
  { s with mem := Cells.set Config.memInit s.mem addr.toNat v }

/-- Bus read for a choice of `MMIO_WINDOWS`: `mem[a]` in ROM and in RAM (R42), forwarded in a window (R44). -/
def State.busReadIn (windows : List Config.MmioWindow) (s : State) (addr : Word) : Byte :=
  match windowIn windows addr with
  | some w => s.mmioRead w addr
  | none => Cells.get Config.memInit s.mem addr.toNat

/-- Bus write for a choice of `MMIO_WINDOWS`: stores in RAM, ignored in ROM (R43), forwarded in a window (R44). -/
def State.busWriteIn (windows : List Config.MmioWindow) (s : State) (addr : Word) (v : Byte) : State :=
  match regionIn windows addr with
  | .rom => s
  | .ram => s.poke addr v
  | .mmio w => s.mmioWrite w addr v

/-- Bus read; no side effect (R42). -/
def State.busRead (s : State) (addr : Word) : Byte := s.busReadIn Config.mmioWindows addr

/-- Bus write (R43). -/
def State.busWrite (s : State) (addr : Word) (v : Byte) : State := s.busWriteIn Config.mmioWindows addr v

/-- `MemRead(a, 2)`: low byte at the lower address (R45, R46). -/
def State.memRead16 (s : State) (addr : Word) : Word := wordOf (s.busRead (addr + 1)) (s.busRead addr)

/-- `MemWrite(a, 2, v)`: low byte at `a`, then high byte at `a + 1`, each decoded on its own (R45). -/
def State.memWrite16 (s : State) (addr v : Word) : State :=
  (s.busWrite addr (lowByte v)).busWrite (addr + 1) (highByte v)

/-! ### Stack (`00_scope.md` R7: push16, pop16) -/

/-- `push16(v)`. -/
def State.push16 (s : State) (v : Word) : State :=
  { (s.busWrite (s.sp - 1) (highByte v)).busWrite (s.sp - 2) (lowByte v) with sp := s.sp - 2 }

/-- `pop16()`: the word on top of the stack and the state with SP advanced. -/
def State.pop16 (s : State) : Word × State := (s.memRead16 s.sp, { s with sp := s.sp + 2 })

/-! ### Port space (`20_memory.md` R51, R52) -/

/-- `pin[p]`. -/
def State.inputLatch (s : State) (port : Byte) : Byte := Cells.get Config.portInit s.pin port.toNat

/-- `pout[p]`. -/
def State.outputLatch (s : State) (port : Byte) : Byte := Cells.get Config.portInit s.pout port.toNat

/-- `pin[p] <- v`, and `pout[p]` too were the two one array (`PORT_SHARED`, D11). -/
def State.setInputLatch (s : State) (port v : Byte) : State :=
  { s with
    pin := Cells.set Config.portInit s.pin port.toNat v
    pout := if Config.portShared then Cells.set Config.portInit s.pout port.toNat v else s.pout }

/-- `pout[p] <- v`, and `pin[p]` too were the two one array (`PORT_SHARED`, D11). -/
def State.setOutputLatch (s : State) (port v : Byte) : State :=
  { s with
    pout := Cells.set Config.portInit s.pout port.toNat v
    pin := if Config.portShared then Cells.set Config.portInit s.pin port.toNat v else s.pin }

/-- The display update (`60_exceptions.md` R241), digits 0 to 5 in order. -/
def State.refreshDisplay (s : State) : State :=
  [0, 1, 2, 3, 4, 5].foldl
    (refreshDigit (s.outputLatch Config.portDispScan) (s.outputLatch Config.portDispSeg)) s

/-- `PortRead(p)` (R51): the keyboard port answers from the scanner, every other from its input latch. -/
def State.portRead (s : State) (port : Byte) : Byte :=
  if port = Config.portKbd then s.scanPort else s.inputLatch port

/-- `PortWrite(p, v)` (R52): the output latch first, then the display update for the two display ports. -/
def State.portWrite (s : State) (port v : Byte) : State :=
  if port = Config.portDispSeg ∨ port = Config.portDispScan then (s.setOutputLatch port v).refreshDisplay
  else s.setOutputLatch port v

/-! ### The end of an instruction (`10_state.md` R13, `60_exceptions.md` R230) -/

/-- Every completed instruction but EI sets `ei_shadow <- 0` (`60_exceptions.md` R230; log 10). -/
def State.clearEiShadow (s : State) : State :=
  { s with intExt := s.intExt.map fun x => { x with eiShadow := false } }

/-- EI sets `ei_shadow <- 1` (`60_exceptions.md` R230). -/
def State.setEiShadow (s : State) : State :=
  { s with intExt := s.intExt.map fun x => { x with eiShadow := true } }

/-- `next(n)` (`00_scope.md` R7). -/
def State.nextPc (s : State) (n : Word) : Word := s.pc + n

/-- An instruction of n bytes that does not set PC itself completes. -/
def State.retire (s : State) (n : Word) : State := { s.clearEiShadow with pc := s.nextPc n }

/-- An instruction that sets PC itself completes. -/
def State.jumpTo (s : State) (target : Word) : State := { s.clearEiShadow with pc := target }

/-! ### The exception and its return (`60_exceptions.md` R220 to R226) -/

/-- Taking IllegalOpcode: `run <- Halted` and nothing else; PC keeps the address of the byte, nothing is saved or pushed
(R221). There is no return from it: the only way out is the host operation restart (R226), `State.restartWith`. -/
def State.takeIllegalOpcode (s : State) : State := { s with run := .halted }

/-- restart: the CPU registers, flags, PC, INTE, run state and the extension's state take their power-on values; memory,
port latches, digits and keyboard stay (`70_reset_and_hazards.md` R271). -/
def State.restartWith (regs : ResetRegs) (s : State) : State :=
  { s with
    a := regs.a, b := regs.b, c := regs.c, d := regs.d, e := regs.e, h := regs.h, l := regs.l,
    sp := regs.sp, pc := Config.resetPc, flags := regs.flags,
    run := .running, inte := false,
    intExt := s.intExt.map fun _ => { pending := none, eiShadow := false } }

/-! ### Interrupts, extension only (`60_exceptions.md` R228 to R230) -/

/-- The address `8 * n` of RST n and of interrupt n (`30_encoding.md` R75, `60_exceptions.md` R229). -/
def restartVector (n : Fin 8) : Word := BitVec.ofNat 16 (8 * n.val)

/-- The request that this tick accepts, if any: pending, INTE = 1 and no EI shadow (R229). -/
def State.acceptable (s : State) : Option (Fin 8) :=
  match s.intExt with
  | none => none
  | some x => if s.inte && !x.eiShadow then x.pending else none

/-- Interrupt acceptance (R229): the address of the instruction not yet executed is pushed. -/
def State.acceptInterrupt (s : State) (n : Fin 8) : State :=
  { s.push16 s.pc with
    pc := restartVector n
    inte := false
    intExt := s.intExt.map fun x => { x with pending := none } }

end Sys2Proof.Machine
end

