-- ==== Sys2Proof/Machine/Flags.lean ====
section
/-! DEFINITION. The flag computations and the 8-bit ALU (`10_state.md` R15, R16; `41_arithmetic.md` R120, R134, R136, R141;
`42_logical.md` R150, R163 to R166). Each ALU function returns its result byte and the flags after it. -/

namespace Sys2Proof.Machine

/-- The number of 1 bits of a byte. -/
def popcount (v : Byte) : Nat := ((List.range 8).filter fun i => v.getLsbD i).length

/-- `parity8(v)`: an even number of 1 bits (`00_scope.md` R7). -/
def parity8 (v : Byte) : Bool := popcount v % 2 == 0

/-- `set_ZSP(v)` (`10_state.md` R16). -/
def Flags.setZSP (f : Flags) (v : Byte) : Flags :=
  { f with z := v == 0, s := v.getLsbD 7, p := parity8 v }

/-- The flag byte `S Z 0 AC 0 P 1 CY` (`10_state.md` R15). -/
def Flags.toByte (f : Flags) : Byte :=
  BitVec.ofNat 8 (128 * f.s.toNat + 64 * f.z.toNat + 16 * f.ac.toNat + 4 * f.p.toNat + 2 + f.cy.toNat)

/-- The flags that POP PSW takes from a byte; bits 5, 3 and 1 are ignored (`10_state.md` R15). -/
def Flags.ofByte (v : Byte) : Flags :=
  { s := v.getLsbD 7, z := v.getLsbD 6, ac := v.getLsbD 4, p := v.getLsbD 2, cy := v.getLsbD 0 }

/-- The truth of a condition (`30_encoding.md` R74). -/
def Flags.cond (f : Flags) : Cond → Bool
  | .nz => !f.z
  | .z => f.z
  | .nc => !f.cy
  | .c => f.cy
  | .po => !f.p
  | .pe => f.p
  | .p => !f.s
  | .m => f.s

/-- The low nibble of a byte. -/
def lowNibble (v : Byte) : Nat := v.toNat % 16

/-- The high nibble of a byte. -/
def highNibble (v : Byte) : Nat := v.toNat / 16

/-- `add8(a, b, c)` (R120). -/
def add8 (a b : Byte) (c : Bool) : Byte × Flags :=
  let t := a.toNat + b.toNat + c.toNat
  let r := BitVec.ofNat 8 t
  (r, Flags.setZSP
    { z := false, s := false, p := false
      cy := decide (t > 255)
      ac := decide (lowNibble a + lowNibble b + c.toNat > 0x0F) } r)

/-- `sub8(a, b, c)` (R120, D21): CY is the borrow, AC the carry out of bit 3 of `a + ~b + (1 - c)`. -/
def sub8 (a b : Byte) (c : Bool) : Byte × Flags :=
  let t : Int := (a.toNat : Int) - b.toNat - c.toNat
  let r := BitVec.ofInt 8 t
  (r, Flags.setZSP
    { z := false, s := false, p := false
      cy := decide (t < 0)
      ac := decide (lowNibble a + lowNibble (~~~b) + (1 - c.toNat) > 0x0F) } r)

/-- AC after ANA / ANI under a given `AND_AC_RULE` (R150, D19). -/
def andAc (rule : Config.AndAcRule) (a b : Byte) : Bool :=
  match rule with
  | .orBit3 => (a ||| b).getLsbD 3
  | .zero => false
  | .one => true

/-- `and8(a, b)` (R150). -/
def and8 (a b : Byte) : Byte × Flags :=
  let r := a &&& b
  (r, Flags.setZSP { z := false, s := false, p := false, cy := false, ac := andAc Config.andAcRule a b } r)

/-- `xor8(a, b)` (R150). -/
def xor8 (a b : Byte) : Byte × Flags :=
  let r := a ^^^ b
  (r, Flags.setZSP { z := false, s := false, p := false, cy := false, ac := false } r)

/-- `or8(a, b)` (R150). -/
def or8 (a b : Byte) : Byte × Flags :=
  let r := a ||| b
  (r, Flags.setZSP { z := false, s := false, p := false, cy := false, ac := false } r)

/-- Increment (R134): CY is kept. -/
def inc8 (f : Flags) (v : Byte) : Byte × Flags :=
  let r := v + 1
  (r, Flags.setZSP { f with ac := decide (lowNibble v = 0x0F) } r)

/-- Decrement (R136, D21): CY is kept. -/
def dec8 (f : Flags) (v : Byte) : Byte × Flags :=
  let r := v - 1
  (r, Flags.setZSP { f with ac := decide (lowNibble v ≠ 0x00) } r)

/-- The correction that DAA adds (R141, D20). -/
def daaCorrection (f : Flags) (a : Byte) : Nat :=
  (if f.ac ∨ lowNibble a > 9 then 0x06 else 0) +
  (if f.cy ∨ highNibble a > 9 ∨ (highNibble a ≥ 9 ∧ lowNibble a > 9) then 0x60 else 0)

/-- DAA (R141, D20). -/
def daa8 (f : Flags) (a : Byte) : Byte × Flags :=
  let corr := daaCorrection f a
  let r := BitVec.ofNat 8 (a.toNat + corr)
  (r, Flags.setZSP
    { f with
      ac := decide (lowNibble a + corr % 16 > 0x0F)
      cy := f.cy || decide (corr ≥ 0x60) } r)

/-- A flag as a number in bit 0 of a byte. -/
def bitByte (b : Bool) : Byte := BitVec.ofNat 8 b.toNat

/-- RLC (R163). -/
def rotLeft (f : Flags) (a : Byte) : Byte × Flags :=
  ((a <<< 1) ||| bitByte (a.getLsbD 7), { f with cy := a.getLsbD 7 })

/-- RRC (R164). -/
def rotRight (f : Flags) (a : Byte) : Byte × Flags :=
  ((a >>> 1) ||| (bitByte (a.getLsbD 0) <<< 7), { f with cy := a.getLsbD 0 })

/-- RAL (R165). -/
def rotLeftCarry (f : Flags) (a : Byte) : Byte × Flags :=
  ((a <<< 1) ||| bitByte f.cy, { f with cy := a.getLsbD 7 })

/-- RAR (R166). -/
def rotRightCarry (f : Flags) (a : Byte) : Byte × Flags :=
  ((a >>> 1) ||| (bitByte f.cy <<< 7), { f with cy := a.getLsbD 0 })

end Sys2Proof.Machine
end

