-- ==== Sys2Proof/Machine/Operands.lean ====
section
/-! DEFINITION. Every operand form: registers, M, the pairs, PSW (`30_encoding.md` R72, R73; `10_state.md` R10 to R12). -/

namespace Sys2Proof.Machine

/-- `x[i]` (`00_scope.md` R7). -/
def State.getReg (s : State) : Reg → Byte
  | .b => s.b
  | .c => s.c
  | .d => s.d
  | .e => s.e
  | .h => s.h
  | .l => s.l
  | .a => s.a

/-- `x[i] <- v`. -/
def State.setReg (s : State) (r : Reg) (v : Byte) : State :=
  match r with
  | .b => { s with b := v }
  | .c => { s with c := v }
  | .d => { s with d := v }
  | .e => { s with e := v }
  | .h => { s with h := v }
  | .l => { s with l := v }
  | .a => { s with a := v }

/-- BC, B high (`10_state.md` R11). -/
def State.bc (s : State) : Word := wordOf s.b s.c

/-- DE, D high. -/
def State.de (s : State) : Word := wordOf s.d s.e

/-- HL, H high: the memory pointer. -/
def State.hl (s : State) : Word := wordOf s.h s.l

/-- PSW: A high, the flag byte low (`10_state.md` R11, R15). -/
def State.psw (s : State) : Word := wordOf s.a s.flags.toByte

/-- `BC <- v`. -/
def State.setBc (s : State) (v : Word) : State := { s with b := highByte v, c := lowByte v }

/-- `DE <- v`. -/
def State.setDe (s : State) (v : Word) : State := { s with d := highByte v, e := lowByte v }

/-- `HL <- v`. -/
def State.setHl (s : State) (v : Word) : State := { s with h := highByte v, l := lowByte v }

/-- A and the five flags from a popped word (`44_stack_io_control.md` R204). -/
def State.setPsw (s : State) (v : Word) : State := { s with a := highByte v, flags := Flags.ofByte (lowByte v) }

/-- `rp[k]`. -/
def State.getPair (s : State) : RegPair → Word
  | .bc => s.bc
  | .de => s.de
  | .hl => s.hl
  | .sp => s.sp

/-- `rp[k] <- v`. -/
def State.setPair (s : State) (rp : RegPair) (v : Word) : State :=
  match rp with
  | .bc => s.setBc v
  | .de => s.setDe v
  | .hl => s.setHl v
  | .sp => { s with sp := v }

/-- The word that PUSH stores (`44_stack_io_control.md` R201, R202). -/
def State.getStackPair (s : State) : StackPair → Word
  | .bc => s.bc
  | .de => s.de
  | .hl => s.hl
  | .psw => s.psw

/-- What POP loads (`44_stack_io_control.md` R203, R204). -/
def State.setStackPair (s : State) (rp : StackPair) (v : Word) : State :=
  match rp with
  | .bc => s.setBc v
  | .de => s.setDe v
  | .hl => s.setHl v
  | .psw => s.setPsw v

/-- The address of LDAX, STAX. -/
def State.getIndexPair (s : State) : IndexPair → Word
  | .bc => s.bc
  | .de => s.de

/-- The value of an 8-bit operand; M is the byte at HL (`30_encoding.md` R75). -/
def State.read8 (s : State) : Operand8 → Byte
  | .reg r => s.getReg r
  | .m => s.busRead s.hl

/-- Writing an 8-bit operand; M is the byte at HL, through the Bus. -/
def State.write8 (s : State) (dst : Operand8) (v : Byte) : State :=
  match dst with
  | .reg r => s.setReg r v
  | .m => s.busWrite s.hl v

/-- A and the flags take an ALU result. -/
def State.setAccFlags (s : State) (r : Byte × Flags) : State := { s with a := r.1, flags := r.2 }

/-- An 8-bit operand and the flags take an ALU result. -/
def State.write8Flags (s : State) (dst : Operand8) (r : Byte × Flags) : State :=
  { s.write8 dst r.1 with flags := r.2 }

end Sys2Proof.Machine
end

