-- ==== Sys2Proof/Machine/Arith.lean ====
section
/-! DEFINITION. Meanings of the arithmetic instructions (`41_arithmetic.md` R120 to R141). -/

namespace Sys2Proof.Machine

/-- ADD (R122, R123). -/
def execAdd (src : Operand8) (s : State) : Host.Outcome State Fault Refusal :=
  .next ((s.setAccFlags (add8 s.a (s.read8 src) false)).retire 1)

/-- ADC (R125, R126). -/
def execAdc (src : Operand8) (s : State) : Host.Outcome State Fault Refusal :=
  .next ((s.setAccFlags (add8 s.a (s.read8 src) s.flags.cy)).retire 1)

/-- SUB (R128, R129). -/
def execSub (src : Operand8) (s : State) : Host.Outcome State Fault Refusal :=
  .next ((s.setAccFlags (sub8 s.a (s.read8 src) false)).retire 1)

/-- SBB (R131, R132). -/
def execSbb (src : Operand8) (s : State) : Host.Outcome State Fault Refusal :=
  .next ((s.setAccFlags (sub8 s.a (s.read8 src) s.flags.cy)).retire 1)

/-- ADI (R124). -/
def execAdi (d8 : Byte) (s : State) : Host.Outcome State Fault Refusal :=
  .next ((s.setAccFlags (add8 s.a d8 false)).retire 2)

/-- ACI (R127). -/
def execAci (d8 : Byte) (s : State) : Host.Outcome State Fault Refusal :=
  .next ((s.setAccFlags (add8 s.a d8 s.flags.cy)).retire 2)

/-- SUI (R130). -/
def execSui (d8 : Byte) (s : State) : Host.Outcome State Fault Refusal :=
  .next ((s.setAccFlags (sub8 s.a d8 false)).retire 2)

/-- SBI (R133). -/
def execSbi (d8 : Byte) (s : State) : Host.Outcome State Fault Refusal :=
  .next ((s.setAccFlags (sub8 s.a d8 s.flags.cy)).retire 2)

/-- INR (R134 register, R135 M: the flags are set even when the write is dropped in ROM). -/
def execInr (dst : Operand8) (s : State) : Host.Outcome State Fault Refusal :=
  .next ((s.write8Flags dst (inc8 s.flags (s.read8 dst))).retire 1)

/-- DCR (R136 register, R137 M). -/
def execDcr (dst : Operand8) (s : State) : Host.Outcome State Fault Refusal :=
  .next ((s.write8Flags dst (dec8 s.flags (s.read8 dst))).retire 1)

/-- INX (R138). -/
def execInx (rp : RegPair) (s : State) : Host.Outcome State Fault Refusal :=
  .next ((s.setPair rp (s.getPair rp + 1)).retire 1)

/-- DCX (R139). -/
def execDcx (rp : RegPair) (s : State) : Host.Outcome State Fault Refusal :=
  .next ((s.setPair rp (s.getPair rp - 1)).retire 1)

/-- DAD (R140): HL and the carry out of bit 15. -/
def execDad (rp : RegPair) (s : State) : Host.Outcome State Fault Refusal :=
  let t := s.hl.toNat + (s.getPair rp).toNat
  .next ({ s.setHl (BitVec.ofNat 16 t) with flags := { s.flags with cy := decide (t > 0xFFFF) } }.retire 1)

/-- DAA (R141). -/
def execDaa (s : State) : Host.Outcome State Fault Refusal :=
  .next ((s.setAccFlags (daa8 s.flags s.a)).retire 1)

end Sys2Proof.Machine
end

