-- ==== Sys2Proof/Machine/Branch.lean ====
section
/-! DEFINITION. Meanings of the branch instructions (`43_branch.md` R180 to R188). No flag is written (R180). -/

namespace Sys2Proof.Machine

/-- Jcc: the target when the condition holds, else the next instruction (R182). -/
def State.jumpIf (s : State) (cond : Cond) (addr : Word) : State :=
  if s.flags.cond cond then s.jumpTo addr else s.retire 3

/-- CALL: the address after the n-byte call is pushed, PC takes the target (R183, R187). -/
def State.callTo (s : State) (n target : Word) : State := (s.push16 (s.nextPc n)).jumpTo target

/-- Ccc (R184). -/
def State.callIf (s : State) (cond : Cond) (addr : Word) : State :=
  if s.flags.cond cond then s.callTo 3 addr else s.retire 3

/-- RET: PC takes the popped word (R185). -/
def State.returnToCaller (s : State) : State := s.pop16.2.jumpTo s.pop16.1

/-- Rcc (R186). -/
def State.returnIf (s : State) (cond : Cond) : State :=
  if s.flags.cond cond then s.returnToCaller else s.retire 1

/-- JMP (R181). -/
def execJmp (addr : Word) (s : State) : Host.Outcome State Fault Refusal :=
  .next (s.jumpTo addr)

/-- JNZ (R182). -/
def execJnz (addr : Word) (s : State) : Host.Outcome State Fault Refusal :=
  .next (s.jumpIf .nz addr)

/-- JZ (R182). -/
def execJz (addr : Word) (s : State) : Host.Outcome State Fault Refusal :=
  .next (s.jumpIf .z addr)

/-- JNC (R182). -/
def execJnc (addr : Word) (s : State) : Host.Outcome State Fault Refusal :=
  .next (s.jumpIf .nc addr)

/-- JC (R182). -/
def execJc (addr : Word) (s : State) : Host.Outcome State Fault Refusal :=
  .next (s.jumpIf .c addr)

/-- JPO (R182). -/
def execJpo (addr : Word) (s : State) : Host.Outcome State Fault Refusal :=
  .next (s.jumpIf .po addr)

/-- JPE (R182). -/
def execJpe (addr : Word) (s : State) : Host.Outcome State Fault Refusal :=
  .next (s.jumpIf .pe addr)

/-- JP (R182). -/
def execJp (addr : Word) (s : State) : Host.Outcome State Fault Refusal :=
  .next (s.jumpIf .p addr)

/-- JM (R182). -/
def execJm (addr : Word) (s : State) : Host.Outcome State Fault Refusal :=
  .next (s.jumpIf .m addr)

/-- CALL (R183). -/
def execCall (addr : Word) (s : State) : Host.Outcome State Fault Refusal :=
  .next (s.callTo 3 addr)

/-- CNZ (R184). -/
def execCnz (addr : Word) (s : State) : Host.Outcome State Fault Refusal :=
  .next (s.callIf .nz addr)

/-- CZ (R184). -/
def execCz (addr : Word) (s : State) : Host.Outcome State Fault Refusal :=
  .next (s.callIf .z addr)

/-- CNC (R184). -/
def execCnc (addr : Word) (s : State) : Host.Outcome State Fault Refusal :=
  .next (s.callIf .nc addr)

/-- CC (R184). -/
def execCc (addr : Word) (s : State) : Host.Outcome State Fault Refusal :=
  .next (s.callIf .c addr)

/-- CPO (R184). -/
def execCpo (addr : Word) (s : State) : Host.Outcome State Fault Refusal :=
  .next (s.callIf .po addr)

/-- CPE (R184). -/
def execCpe (addr : Word) (s : State) : Host.Outcome State Fault Refusal :=
  .next (s.callIf .pe addr)

/-- CP (R184). -/
def execCp (addr : Word) (s : State) : Host.Outcome State Fault Refusal :=
  .next (s.callIf .p addr)

/-- CM (R184). -/
def execCm (addr : Word) (s : State) : Host.Outcome State Fault Refusal :=
  .next (s.callIf .m addr)

/-- RET (R185). -/
def execRet (s : State) : Host.Outcome State Fault Refusal :=
  .next s.returnToCaller

/-- RNZ (R186). -/
def execRnz (s : State) : Host.Outcome State Fault Refusal :=
  .next (s.returnIf .nz)

/-- RZ (R186). -/
def execRz (s : State) : Host.Outcome State Fault Refusal :=
  .next (s.returnIf .z)

/-- RNC (R186). -/
def execRnc (s : State) : Host.Outcome State Fault Refusal :=
  .next (s.returnIf .nc)

/-- RC (R186). -/
def execRc (s : State) : Host.Outcome State Fault Refusal :=
  .next (s.returnIf .c)

/-- RPO (R186). -/
def execRpo (s : State) : Host.Outcome State Fault Refusal :=
  .next (s.returnIf .po)

/-- RPE (R186). -/
def execRpe (s : State) : Host.Outcome State Fault Refusal :=
  .next (s.returnIf .pe)

/-- RP (R186). -/
def execRp (s : State) : Host.Outcome State Fault Refusal :=
  .next (s.returnIf .p)

/-- RM (R186). -/
def execRm (s : State) : Host.Outcome State Fault Refusal :=
  .next (s.returnIf .m)

/-- RST n (R187): a one-byte call to `8 * n`; INTE is kept. -/
def execRst (n : Fin 8) (s : State) : Host.Outcome State Fault Refusal :=
  .next (s.callTo 1 (restartVector n))

/-- PCHL (R188). -/
def execPchl (s : State) : Host.Outcome State Fault Refusal :=
  .next (s.jumpTo s.hl)

end Sys2Proof.Machine
end

