-- ==== Sys2Proof/Machine/Exceptions.lean ====
section
/-! DEFINITION. The meaning of the twelve illegal first bytes (`60_exceptions.md` R220, R221). -/

namespace Sys2Proof.Machine

/-- An illegal byte raises IllegalOpcode, which this meaning takes: run becomes Halted, nothing else changes, no byte after it
is read (R221). The report to the host is `State.tickResult` (R252). -/
def execIllegal (_op : Byte) (s : State) : Host.Outcome State Fault Refusal :=
  .next s.takeIllegalOpcode

end Sys2Proof.Machine
end

