-- ==== Sys2Proof/Machine/Logic.lean ====
section
/-! DEFINITION. Meanings of the logical, compare, rotate, complement and carry instructions (`42_logical.md` R150 to R169). -/

namespace Sys2Proof.Machine

/-- ANA (R151, R152). -/
def execAna (src : Operand8) (s : State) : Host.Outcome State Fault Refusal :=
  .next ((s.setAccFlags (and8 s.a (s.read8 src))).retire 1)

/-- ANI (R153). -/
def execAni (d8 : Byte) (s : State) : Host.Outcome State Fault Refusal :=
  .next ((s.setAccFlags (and8 s.a d8)).retire 2)

/-- XRA (R154, R155). -/
def execXra (src : Operand8) (s : State) : Host.Outcome State Fault Refusal :=
  .next ((s.setAccFlags (xor8 s.a (s.read8 src))).retire 1)

/-- XRI (R156). -/
def execXri (d8 : Byte) (s : State) : Host.Outcome State Fault Refusal :=
  .next ((s.setAccFlags (xor8 s.a d8)).retire 2)

/-- ORA (R157, R158). -/
def execOra (src : Operand8) (s : State) : Host.Outcome State Fault Refusal :=
  .next ((s.setAccFlags (or8 s.a (s.read8 src))).retire 1)

/-- ORI (R159). -/
def execOri (d8 : Byte) (s : State) : Host.Outcome State Fault Refusal :=
  .next ((s.setAccFlags (or8 s.a d8)).retire 2)

/-- CMP (R160, R161): the flags of SUB, A kept. -/
def execCmp (src : Operand8) (s : State) : Host.Outcome State Fault Refusal :=
  .next ({ s with flags := (sub8 s.a (s.read8 src) false).2 }.retire 1)

/-- CPI (R162). -/
def execCpi (d8 : Byte) (s : State) : Host.Outcome State Fault Refusal :=
  .next ({ s with flags := (sub8 s.a d8 false).2 }.retire 2)

/-- RLC (R163). -/
def execRlc (s : State) : Host.Outcome State Fault Refusal :=
  .next ((s.setAccFlags (rotLeft s.flags s.a)).retire 1)

/-- RRC (R164). -/
def execRrc (s : State) : Host.Outcome State Fault Refusal :=
  .next ((s.setAccFlags (rotRight s.flags s.a)).retire 1)

/-- RAL (R165). -/
def execRal (s : State) : Host.Outcome State Fault Refusal :=
  .next ((s.setAccFlags (rotLeftCarry s.flags s.a)).retire 1)

/-- RAR (R166). -/
def execRar (s : State) : Host.Outcome State Fault Refusal :=
  .next ((s.setAccFlags (rotRightCarry s.flags s.a)).retire 1)

/-- CMA (R167). -/
def execCma (s : State) : Host.Outcome State Fault Refusal :=
  .next ((s.setReg .a (~~~s.a)).retire 1)

/-- CMC (R168). -/
def execCmc (s : State) : Host.Outcome State Fault Refusal :=
  .next ({ s with flags := { s.flags with cy := !s.flags.cy } }.retire 1)

/-- STC (R169). -/
def execStc (s : State) : Host.Outcome State Fault Refusal :=
  .next ({ s with flags := { s.flags with cy := true } }.retire 1)

end Sys2Proof.Machine
end

