-- ==== Sys2Proof/Machine/StackIo.lean ====
section
/-! DEFINITION. Meanings of the stack, I/O and machine-control instructions (`44_stack_io_control.md` R200 to R212). -/

namespace Sys2Proof.Machine

/-- PUSH (R201 pair, R202 PSW). -/
def execPush (rp : StackPair) (s : State) : Host.Outcome State Fault Refusal :=
  .next ((s.push16 (s.getStackPair rp)).retire 1)

/-- POP (R203 pair, R204 PSW). -/
def execPop (rp : StackPair) (s : State) : Host.Outcome State Fault Refusal :=
  .next ((s.pop16.2.setStackPair rp s.pop16.1).retire 1)

/-- XTHL (R205): both reads before both writes. -/
def execXthl (s : State) : Host.Outcome State Fault Refusal :=
  .next (((s.memWrite16 s.sp s.hl).setHl (s.memRead16 s.sp)).retire 1)

/-- SPHL (R206). -/
def execSphl (s : State) : Host.Outcome State Fault Refusal :=
  .next ({ s with sp := s.hl }.retire 1)

/-- IN (R207). -/
def execInp (port : Byte) (s : State) : Host.Outcome State Fault Refusal :=
  .next ((s.setReg .a (s.portRead port)).retire 2)

/-- OUT (R208). -/
def execOutp (port : Byte) (s : State) : Host.Outcome State Fault Refusal :=
  .next ((s.portWrite port s.a).retire 2)

/-- EI (R209): sets INTE and, in the extension, the EI shadow. -/
def execEi (s : State) : Host.Outcome State Fault Refusal :=
  .next ({ s with inte := true }.retire 1).setEiShadow

/-- DI (R210): a pending request stays pending. -/
def execDi (s : State) : Host.Outcome State Fault Refusal :=
  .next ({ s with inte := false }.retire 1)

/-- HLT (R211): PC advances, run becomes Halted. -/
def execHlt (s : State) : Host.Outcome State Fault Refusal :=
  .next ({ s with run := .halted }.retire 1)

/-- NOP (R212). -/
def execNop (s : State) : Host.Outcome State Fault Refusal :=
  .next (s.retire 1)

end Sys2Proof.Machine
end

