-- ==== Sys2Proof/Machine/Transfer.lean ====
section
/-! DEFINITION. Meanings of the data transfer instructions (`40_data_transfer.md` R100 to R113). No flag is written (R100). -/

namespace Sys2Proof.Machine

/-- MOV (R101 register to register, R102 from M, R103 to M). -/
def execMov (dst src : Operand8) (s : State) : Host.Outcome State Fault Refusal :=
  .next ((s.write8 dst (s.read8 src)).retire 1)

/-- MVI (R104 register, R105 M). -/
def execMvi (dst : Operand8) (d8 : Byte) (s : State) : Host.Outcome State Fault Refusal :=
  .next ((s.write8 dst d8).retire 2)

/-- LXI (R106). -/
def execLxi (rp : RegPair) (d16 : Word) (s : State) : Host.Outcome State Fault Refusal :=
  .next ((s.setPair rp d16).retire 3)

/-- LDA (R107). -/
def execLda (addr : Word) (s : State) : Host.Outcome State Fault Refusal :=
  .next ((s.setReg .a (s.busRead addr)).retire 3)

/-- STA (R108). -/
def execSta (addr : Word) (s : State) : Host.Outcome State Fault Refusal :=
  .next ((s.busWrite addr s.a).retire 3)

/-- LHLD (R109). -/
def execLhld (addr : Word) (s : State) : Host.Outcome State Fault Refusal :=
  .next ((s.setHl (s.memRead16 addr)).retire 3)

/-- SHLD (R110). -/
def execShld (addr : Word) (s : State) : Host.Outcome State Fault Refusal :=
  .next ((s.memWrite16 addr s.hl).retire 3)

/-- LDAX (R111). -/
def execLdax (rp : IndexPair) (s : State) : Host.Outcome State Fault Refusal :=
  .next ((s.setReg .a (s.busRead (s.getIndexPair rp))).retire 1)

/-- STAX (R112). -/
def execStax (rp : IndexPair) (s : State) : Host.Outcome State Fault Refusal :=
  .next ((s.busWrite (s.getIndexPair rp) s.a).retire 1)

/-- XCHG (R113). -/
def execXchg (s : State) : Host.Outcome State Fault Refusal :=
  .next (((s.setHl s.de).setDe s.hl).retire 1)

end Sys2Proof.Machine
end

