-- ==== Sys2Proof/Machine/Fetch.lean ====
section
/-! DEFINITION. Instruction fetch (`30_encoding.md` R70, `20_memory.md` R57), what a tick does, and what it reports
(`60_exceptions.md` R220, R224, R225, R252). -/

namespace Sys2Proof.Machine

/-- The instruction at PC: the opcode byte, then only the bytes its shape takes, at PC + 1 and PC + 2 modulo 2^16 (R70). -/
def State.fetch (s : State) : Instr :=
  match decodeOpcode (s.busRead s.pc) with
  | .one i => i
  | .two build => build (s.busRead (s.pc + 1))
  | .three build => build (imm16 (s.busRead (s.pc + 1)) (s.busRead (s.pc + 2)))

/-- What a tick does. -/
inductive TickAction where
  /-- nothing: run is Halted or Stopped (R225) -/
  | idle
  /-- accept the interrupt of restart number n (R229) -/
  | interrupt (n : Fin 8)
  /-- execute the instruction at PC -/
  | execute (i : Instr)
deriving DecidableEq, Repr

/-- The order of checks of a tick (R224). -/
def State.tickAction (s : State) : TickAction :=
  match s.run with
  | .halted => .idle
  | .stopped => .idle
  | .running =>
    match s.acceptable with
    | some n => .interrupt n
    | none => .execute s.fetch

/-- The result a tick gives the host (R252). -/
inductive TickResult where
  | ok
  /-- the address of the illegal byte and the byte (R220) -/
  | illegalOpcode (addr : Word) (byte : Byte)
deriving DecidableEq, Repr

/-- The result of the tick that starts in `s`: IllegalOpcode exactly when that tick fetches an illegal byte, which is the one
report of it; nothing is stored in the state (R220, R221, R225; log 8). -/
def State.tickResult (s : State) : TickResult :=
  match s.tickAction with
  | .execute (.illegal op) => .illegalOpcode s.pc op
  | _ => .ok

/-- The bytes of an opcode-table word stored at PC, PC + 1, PC + 2, whatever the region, in a state whose next tick
executes them. -/
def State.placeForFetch (s : State) (w : Nat) : State :=
  let placed := ((s.poke s.pc (BitVec.ofNat 8 w)).poke (s.pc + 1) (BitVec.ofNat 8 (w / 256))).poke (s.pc + 2)
    (BitVec.ofNat 8 (w / 65536))
  { placed with
    run := .running
    intExt := s.intExt.map fun x => { x with pending := none } }

end Sys2Proof.Machine
end

