-- ==== Sys2Proof/Machine/Step.lean ====
section
/-! DEFINITION. One tick (`60_exceptions.md` R224, R252), and where an opcode-table word is placed for the next tick. -/

namespace Sys2Proof.Machine

/-- The tick in the order of `60_exceptions.md` R224: nothing when not Running (R225); in the extension an acceptable
interrupt is the whole tick (R229); else the instruction fetched at PC, whose illegal bytes take IllegalOpcode (R221). -/
def step (s : State) : Host.Outcome State Fault Refusal :=
  match s.tickAction with
  | .idle => .next s
  | .interrupt n => .next (s.acceptInterrupt n)
  | .execute i => exec i s

/-- `s` with the instruction whose opcode-table word is `w` placed at PC, and the tick bound to execute it: three bytes are
stored whatever the region, the run state is Running and no interrupt request is pending; log 12. -/
def State.withFetchWord (s : State) (nbits w : Nat) : State :=
  s.placeForFetch (w % 2 ^ nbits)

end Sys2Proof.Machine
end

