-- ==== Sys2Proof/Machine/Session.lean ====
section
/-! DEFINITION. The host interface: the session control surface of `60_exceptions.md` R250 to R262 and R228, with the
procedures of `70_reset_and_hazards.md` R270 to R273. Each operation is atomic and happens between ticks
(`20_memory.md` R55). -/

namespace Sys2Proof.Machine

/-- stop (R253). -/
def State.stop (s : State) : State := { s with run := .stopped }

/-- restart with `RESET_REGS` at its default (R254). -/
def State.restart (s : State) : State := s.restartWith Config.resetRegs

/-- pressKey(code) (R245, R256): a second press replaces the active key. -/
def State.pressKey (s : State) (code : Byte) : State := { s with key := some code }

/-- releaseKey() (R245, R257). -/
def State.releaseKey (s : State) : State := { s with key := none }

/-- setInputPort(p, v) (R258). -/
def State.setInputPort (s : State) (port v : Byte) : State := s.setInputLatch port v

/-- getOutputPort(p) (R259). -/
def State.getOutputPort (s : State) (port : Byte) : Byte := s.outputLatch port

/-- getDisplayDigit(i) (R260). -/
def State.getDisplayDigit (s : State) (i : Fin 6) : Byte := s.readDigit i

/-- getProgramCounter() (R261). -/
def State.getProgramCounter (s : State) : Word := s.pc

/-- requestInterrupt(n) (R228): one latched edge, replaced by a later one. -/
def State.requestInterrupt (s : State) (n : Fin 8) : State :=
  { s with intExt := s.intExt.map fun x => { x with pending := some n } }

/-- The bytes of an image stored from an address up, bypassing the write rejection of the ROM (R273). -/
def State.pokeAll (s : State) (addr : Nat) : List Byte → State
  | [] => s
  | v :: rest => (s.poke (BitVec.ofNat 16 addr) v).pokeAll (addr + 1) rest

/-- loadImage(img) (R255, R273): none is `ImageTooLarge`, and then no state changes. -/
def State.loadImage (s : State) (img : List Byte) : Option State :=
  if img.length > Config.romSize then none else some (s.pokeAll Config.romBase img)

/-- The host operations (R250). Their argument types are bounded, so an argument out of range cannot be written (D25). -/
inductive HostOp where
  | create
  | tick
  | stop
  | restart
  | loadImage (img : List Byte)
  | pressKey (code : Byte)
  | releaseKey
  | setInputPort (port v : Byte)
  | getOutputPort (port : Byte)
  | getDisplayDigit (i : Fin 6)
  | getProgramCounter
  | free
  | requestInterrupt (n : Fin 8)
deriving DecidableEq, Repr

/-- What an operation gives the host (R250). -/
inductive HostResult where
  | done
  | ticked (r : TickResult)
  | imageTooLarge
  | byte (v : Byte)
  | word (v : Word)
deriving DecidableEq, Repr

/-- A session: live with a state, or absent, before create and after free (R262; log 11). `INT_INPUT` belongs to the machine
and outlives a session: a live one has it in its state (log 5), an absent one carries it. -/
inductive Session where
  | live (s : State)
  | absent (intInput : Bool)
deriving DecidableEq, Repr

/-- `INT_INPUT` of the machine that a state belongs to (R228; log 5). -/
def State.hasIntInput (s : State) : Bool := s.intExt.isSome

/-- An operation on a live session. create gives the power-on state of the same machine: where there is an interrupt input,
no request is pending and the EI shadow is clear (R228, R251). -/
def State.hostStep (s : State) : HostOp → Host.Outcome (Session × HostResult) Fault Refusal
  | .create => .next (.live (State.create s.hasIntInput), .done)
  | .tick =>
    match step s with
    | .next t => .next (.live t, .ticked s.tickResult)
    | .fault r => .fault r
    | .refused r => .refused r
  | .stop => .next (.live s.stop, .done)
  | .restart => .next (.live s.restart, .done)
  | .loadImage img =>
    match s.loadImage img with
    | some t => .next (.live t, .done)
    | none => .next (.live s, .imageTooLarge)
  | .pressKey code => .next (.live (s.pressKey code), .done)
  | .releaseKey => .next (.live s.releaseKey, .done)
  | .setInputPort port v => .next (.live (s.setInputPort port v), .done)
  | .getOutputPort port => .next (.live s, .byte (s.getOutputPort port))
  | .getDisplayDigit i => .next (.live s, .byte (s.getDisplayDigit i))
  | .getProgramCounter => .next (.live s, .word s.getProgramCounter)
  | .free => .next (.absent s.hasIntInput, .done)
  | .requestInterrupt n =>
    match s.intExt with
    | some _ => .next (.live (s.requestInterrupt n), .done)
    | none => .refused .noInterruptInput

/-- One host operation (R250): create makes a session in power-on state (R251); without a session nothing else has a
meaning (R262). -/
def Session.hostStep : Session → HostOp → Host.Outcome (Session × HostResult) Fault Refusal
  | .live s, op => s.hostStep op
  | .absent intInput, .create => .next (.live (State.create intInput), .done)
  | .absent _, _ => .refused .sessionFreed

/-- Any sequence of host operations, ticks among them, in any order (R55, D17), with the results given to the host. -/
def Session.run : Session → List HostOp → Host.Outcome (Session × List HostResult) Fault Refusal
  | ss, [] => .next (ss, [])
  | ss, op :: rest =>
    match ss.hostStep op with
    | .fault r => .fault r
    | .refused r => .refused r
    | .next (ss', out) =>
      match ss'.run rest with
      | .next (ss'', outs) => .next (ss'', out :: outs)
      | .fault r => .fault r
      | .refused r => .refused r

end Sys2Proof.Machine
end

