-- ==== Sys2Proof/Safety.lean ====
section
/-! DEFINITION. What counts as a good state, and the vocabulary of the claims: what an instruction keeps (its frame), and
what its rule gives, written from the rules and not from the meanings. -/

namespace Sys2Proof.Machine

/-! ### Good states -/

/-- The invariant of the model: memory and both latch arrays are in their canonical form. -/
structure State.Inv (s : State) : Prop where
  mem : s.mem.wf = true
  pin : PortLatches.wf s.pin = true
  pout : PortLatches.wf s.pout = true

/-- The machine is about to execute an instruction: Running, and no interrupt is accepted by this tick (R224). -/
structure State.Executes (s : State) : Prop where
  run : s.run = .running
  noInterrupt : s.acceptable = none

/-- Instructions executed one after another by their meanings, none when one of them stops. -/
def execAll : List Instr → State → Option State
  | [], s => some s
  | i :: rest, s =>
    match exec i s with
    | .next t => execAll rest t
    | .fault _ => none
    | .refused _ => none

/-! ### Frames -/

/-- Every general register outside the list keeps its value. -/
def RegsKept (changed : List Reg) (s t : State) : Prop := ∀ r, r ∉ changed → t.getReg r = s.getReg r

/-- Every byte of memory reads as before. -/
def MemKept (s t : State) : Prop := ∀ addr, t.busRead addr = s.busRead addr

/-- Memory after storing bytes at addresses: a listed RAM address reads as its byte, every other address, and every ROM
address, reads as before (`20_memory.md` R43). -/
def MemAfter (stores : List (Word × Byte)) (s t : State) : Prop :=
  ∀ addr, t.busRead addr =
    if regionOf addr = .ram then (stores.lookup addr).getD (s.busRead addr) else s.busRead addr

/-- What no ordinary instruction touches: run state, INTE, port latches, digits, keyboard, a pending request and whether the
interrupt extension exists. The EI shadow, which a completed instruction clears, is in a statement of its own. -/
structure SystemKept (s t : State) : Prop where
  run : t.run = s.run
  inte : t.inte = s.inte
  pin : t.pin = s.pin
  pout : t.pout = s.pout
  digits : t.digits = s.digits
  key : t.key = s.key
  request : t.intExt.map (fun x => x.pending) = s.intExt.map (fun x => x.pending)

/-- The registers of a pair. -/
def pairRegs : RegPair → List Reg
  | .bc => [.b, .c]
  | .de => [.d, .e]
  | .hl => [.h, .l]
  | .sp => []

/-- The registers that POP loads. -/
def stackPairRegs : StackPair → List Reg
  | .bc => [.b, .c]
  | .de => [.d, .e]
  | .hl => [.h, .l]
  | .psw => [.a]

/-! ### Results -/

/-- The value of an 8-bit operand: a register, or the byte at the address H, L (`30_encoding.md` R72, R75). -/
def operandValue (s : State) : Operand8 → Byte
  | .reg r => s.getReg r
  | .m => s.busRead (wordOf s.h s.l)

/-- The number of 1 bits of a byte, as a sum of its bits. -/
def onesOf (v : Byte) : Nat :=
  v.toNat % 2 + v.toNat / 2 % 2 + v.toNat / 4 % 2 + v.toNat / 8 % 2 +
  v.toNat / 16 % 2 + v.toNat / 32 % 2 + v.toNat / 64 % 2 + v.toNat / 128 % 2

/-- Z, S and P are those of the result (`10_state.md` R16). -/
structure ZspOf (f : Flags) (v : Byte) : Prop where
  z : f.z = true ↔ v.toNat = 0
  s : f.s = true ↔ v.toNat ≥ 128
  p : f.p = true ↔ onesOf v % 2 = 0

/-- One register is loaded; nothing else changes but PC. -/
structure LoadsRegister (r : Reg) (v : Byte) (len : Word) (s t : State) : Prop where
  loaded : t.getReg r = v
  regs : RegsKept [r] s t
  sp : t.sp = s.sp
  flags : t.flags = s.flags
  mem : MemKept s t
  pc : t.pc = s.pc + len
  system : SystemKept s t

/-- Bytes are stored; no register but PC and no flag changes. -/
structure StoresBytes (stores : List (Word × Byte)) (len : Word) (s t : State) : Prop where
  mem : MemAfter stores s t
  regs : RegsKept [] s t
  sp : t.sp = s.sp
  flags : t.flags = s.flags
  pc : t.pc = s.pc + len
  system : SystemKept s t

/-- A and flags are written, at most; nothing else changes but PC. -/
structure AccumulatorOnly (len : Word) (s t : State) : Prop where
  regs : RegsKept [.a] s t
  sp : t.sp = s.sp
  mem : MemKept s t
  pc : t.pc = s.pc + len
  system : SystemKept s t

/-- CY may change; Z, S, P, AC are kept. -/
structure OnlyCarryChanged (s t : State) : Prop where
  zero : t.flags.z = s.flags.z
  sign : t.flags.s = s.flags.s
  parity : t.flags.p = s.flags.p
  auxCarry : t.flags.ac = s.flags.ac

/-- `add8(a, b, c)` (`41_arithmetic.md` R120). -/
structure AddFlags (a b c : Nat) (r : Byte) (f : Flags) : Prop where
  value : r.toNat = (a + b + c) % 256
  cy : f.cy = true ↔ a + b + c > 255
  ac : f.ac = true ↔ a % 16 + b % 16 + c > 15
  zsp : ZspOf f r

/-- `sub8(a, b, c)` (`41_arithmetic.md` R120): CY is the borrow, AC no borrow out of the low nibble. -/
structure SubFlags (a b c : Nat) (r : Byte) (f : Flags) : Prop where
  value : r.toNat = (256 + a - b - c) % 256
  cy : f.cy = true ↔ a < b + c
  ac : f.ac = true ↔ b % 16 + c ≤ a % 16
  zsp : ZspOf f r

/-- Only PC (and SP and memory as said elsewhere) may change: registers, flags and the rest are kept. -/
structure ControlTransfer (s t : State) : Prop where
  regs : RegsKept [] s t
  flags : t.flags = s.flags
  system : SystemKept s t

/-- A word is on the stack: high byte at SP - 1, low byte at SP - 2, SP down by 2 (`20_memory.md` R46). -/
structure PushesWord (w : Nat) (s t : State) : Prop where
  mem : MemAfter [(s.sp - 1, BitVec.ofNat 8 (w / 256)), (s.sp - 2, BitVec.ofNat 8 w)] s t
  sp : t.sp = s.sp - 2

/-- The word on top of the stack: low byte at SP, high byte at SP + 1 (`20_memory.md` R46). -/
def stackTop (s : State) : Nat := 256 * (s.busRead (s.sp + 1)).toNat + (s.busRead s.sp).toNat

/-- A conditional or unconditional jump (`43_branch.md` R182). -/
def JumpsWhen (taken : Prop) (i : Instr) (addr : Word) (s : State) : Prop :=
  ∃ t, exec i s = .next t ∧ ControlTransfer s t ∧ MemKept s t ∧ t.sp = s.sp ∧
    (taken → t.pc = addr) ∧ (¬ taken → t.pc = s.pc + 3)

/-- A conditional or unconditional call (`43_branch.md` R183, R184). -/
def CallsWhen (taken : Prop) (i : Instr) (addr : Word) (s : State) : Prop :=
  ∃ t, exec i s = .next t ∧ ControlTransfer s t ∧
    (taken → t.pc = addr ∧ PushesWord (s.pc + 3).toNat s t) ∧
    (¬ taken → t.pc = s.pc + 3 ∧ t.sp = s.sp ∧ MemKept s t)

/-- A conditional or unconditional return (`43_branch.md` R185, R186). -/
def ReturnsWhen (taken : Prop) (i : Instr) (s : State) : Prop :=
  ∃ t, exec i s = .next t ∧ ControlTransfer s t ∧ MemKept s t ∧
    (taken → t.pc.toNat = stackTop s ∧ t.sp = s.sp + 2) ∧
    (¬ taken → t.pc = s.pc + 1 ∧ t.sp = s.sp)

end Sys2Proof.Machine
end

