-- ==== Sys2Proof/Certificates/Slice0/Obligations.lean ====
section
/-! DEFINITION. The statements for the provers. Each docstring names the rule of spec/ it formalises; a clause that rests on
a decision the spec marks as its own (D<n>), or on a choice of the model (log n), says so. -/

open Sys2Proof Sys2Proof.Machine

/-! ### Encoding -/

/-- Words written out from the patterns of `30_encoding.md` sections 1 to 3 decode to the instructions they stand for. -/
def Obligations.SampleWordsDecode : Prop :=
  decode [0b01111000] = .instr (.mov (.reg .a) (.reg .b)) [] ∧
  decode [0b00100001, 0x34, 0x12] = .instr (.lxi .hl 0x1234) [] ∧
  decode [0b10011110] = .instr (.sbb .m) [] ∧
  decode [0b11111110, 0x40] = .instr (.cpi 0x40) [] ∧
  decode [0b11101010, 0x34, 0x12] = .instr (.jpe 0x1234) [] ∧
  decode [0b11010111] = .instr (.rst 2) [] ∧
  decode [0b11110101] = .instr (.push .psw) [] ∧
  decode [0b01110110] = .instr .hlt [] ∧
  decode [0b11001011] = .instr (.illegal 0xCB) []

/-- Decoding what the encoder wrote gives the instruction back, whatever bytes follow: no bit of an encoding is dropped
(`30_encoding.md` R71 to R76). -/
def Obligations.DecodeEncodeRoundTrip : Prop :=
  ∀ (i : Instr) (rest : List Byte), i.wf = true → decode (encode i ++ rest) = .instr i rest

/-- Every decoded instruction is well formed and is encoded by the very bytes it was decoded from: each word has one
meaning and no encoding falls through to a neighbour (`30_encoding.md` R78, R79). -/
def Obligations.DecodedBytesReencode : Prop :=
  ∀ (bytes : List Byte) (i : Instr) (rest : List Byte),
    decode bytes = .instr i rest → i.wf = true ∧ encode i ++ rest = bytes

/-- The first byte alone decides (`30_encoding.md` section 4): the bytes with an illegal verdict are exactly the twelve of the
spec's decision D2; 26 bytes take two more, 18 take one more, every other, the illegal ones too, takes none. -/
def Obligations.FirstByteDecides : Prop :=
  (∀ (op : Byte) (rest : List Byte),
    (decode (op :: rest) = .instr (.illegal op) rest ↔
      op ∈ ([0x08, 0x10, 0x18, 0x20, 0x28, 0x30, 0x38, 0xCB, 0xD9, 0xDD, 0xED, 0xFD] : List Byte)) ∧
    ∀ (op' : Byte) (tail : List Byte), decode (op :: rest) = .instr (.illegal op') tail → op' = op ∧ tail = rest) ∧
  ∀ (op b1 b2 : Byte), ∃ i, decode [op, b1, b2] = .instr i
    (if op ∈ ([0x01, 0x11, 0x21, 0x31, 0x22, 0x2A, 0x32, 0x3A, 0xC2, 0xCA, 0xD2, 0xDA, 0xE2, 0xEA, 0xF2, 0xFA, 0xC3,
        0xC4, 0xCC, 0xD4, 0xDC, 0xE4, 0xEC, 0xF4, 0xFC, 0xCD] : List Byte) then []
      else if op ∈ ([0x06, 0x0E, 0x16, 0x1E, 0x26, 0x2E, 0x36, 0x3E, 0xC6, 0xCE, 0xD6, 0xDE, 0xE6, 0xEE, 0xF6, 0xFE,
        0xD3, 0xDB] : List Byte) then [b2]
      else [b1, b2])

/-! ### The tick -/

/-- When the bytes at PC decode to an instruction, a tick that executes is exec of that instruction, and nothing is added
around it: PC is moved by the meaning (`60_exceptions.md` R224, R252; `30_encoding.md` R70). -/
def Obligations.TickExecutesDecodedInstruction : Prop :=
  ∀ (s : State) (i : Instr) (rest : List Byte), s.Executes →
    decode [s.busRead s.pc, s.busRead (s.pc + 1), s.busRead (s.pc + 2)] = .instr i rest →
    step s = exec i s

/-- Any number of ticks while Halted or Stopped changes nothing and reports ok (`60_exceptions.md` R225, D32). -/
def Obligations.NotRunningTicksDoNothing : Prop :=
  ∀ (n : Nat) (s : State), s.run ≠ .running → Sys2Proof.core.run n s = .next s ∧ s.tickResult = .ok

/-- Every tick completes with a next state: no fault, no refusal (`60_exceptions.md` R223, R252; `20_memory.md` R54). -/
def Obligations.EveryTickCompletes : Prop := ∀ s : State, ∃ t, step s = .next t

/-- A Running machine leaves Running by a tick exactly when that tick executes HLT or an illegal byte, and then it is Halted
(`60_exceptions.md` R236, D23). -/
def Obligations.OnlyHltAndIllegalHalt : Prop :=
  ∀ s t : State, s.run = .running → step s = .next t →
    (t.run = .running ∨ t.run = .halted) ∧
    (t.run = .halted ↔ s.acceptable = none ∧ (s.fetch = .hlt ∨ ∃ op, s.fetch = .illegal op))

/-- An illegal byte takes IllegalOpcode: run becomes Halted, nothing else changes, PC included, and the tick reports the
address and the byte (`60_exceptions.md` R220, R221; the spec's decisions D2, D3, D24). -/
def Obligations.IllegalByteHalts : Prop :=
  (∀ (op : Byte) (s : State), exec (.illegal op) s = .next { s with run := .halted }) ∧
  ∀ s : State, s.Executes →
    s.busRead s.pc ∈ ([0x08, 0x10, 0x18, 0x20, 0x28, 0x30, 0x38, 0xCB, 0xD9, 0xDD, 0xED, 0xFD] : List Byte) →
    step s = .next { s with run := .halted } ∧ s.tickResult = .illegalOpcode s.pc (s.busRead s.pc)

/-- A tick reports IllegalOpcode(addr, byte) exactly when it executes, addr is PC and byte is an illegal byte found there;
every other tick reports ok (`60_exceptions.md` R220, R225, R252; D24). -/
def Obligations.ReportIsExactlyTheIllegalFetch : Prop :=
  ∀ (s : State) (addr : Word) (byte : Byte),
    s.tickResult = .illegalOpcode addr byte ↔
      s.Executes ∧ addr = s.pc ∧ byte = s.busRead s.pc ∧ Config.illegalSet.contains byte = true

/-! ### Data transfer -/

/-- MOV r,r; MOV r,M; MVI r; LDA; LDAX: the destination register takes the source register, the byte at H, L, the immediate,
the byte at the direct address or at BC / DE; nothing else changes (`40_data_transfer.md` R101, R102, R104, R107, R111). The
address is that of the start of the instruction. The slot of MOV M,M is HLT. -/
def Obligations.LoadRegister : Prop :=
  ∀ (dst src : Reg) (d8 : Byte) (addr : Word) (s : State),
    (decode [BitVec.ofNat 8 (0x40 + 8 * operandCode (.reg dst) + operandCode (.reg src))] =
        .instr (.mov (.reg dst) (.reg src)) [] ∧
      ∃ t, exec (.mov (.reg dst) (.reg src)) s = .next t ∧ LoadsRegister dst (s.getReg src) 1 s t) ∧
    (decode [BitVec.ofNat 8 (0x46 + 8 * operandCode (.reg dst))] = .instr (.mov (.reg dst) .m) [] ∧
      ∃ t, exec (.mov (.reg dst) .m) s = .next t ∧ LoadsRegister dst (s.busRead (wordOf s.h s.l)) 1 s t) ∧
    (decode [BitVec.ofNat 8 (0x06 + 8 * operandCode (.reg dst)), d8] = .instr (.mvi (.reg dst) d8) [] ∧
      ∃ t, exec (.mvi (.reg dst) d8) s = .next t ∧ LoadsRegister dst d8 2 s t) ∧
    (decode [0x3A, BitVec.ofNat 8 addr.toNat, BitVec.ofNat 8 (addr.toNat / 256)] = .instr (.lda addr) [] ∧
      ∃ t, exec (.lda addr) s = .next t ∧ LoadsRegister .a (s.busRead addr) 3 s t) ∧
    (decode [0x0A] = .instr (.ldax .bc) [] ∧
      ∃ t, exec (.ldax .bc) s = .next t ∧ LoadsRegister .a (s.busRead (wordOf s.b s.c)) 1 s t) ∧
    (decode [0x1A] = .instr (.ldax .de) [] ∧
      ∃ t, exec (.ldax .de) s = .next t ∧ LoadsRegister .a (s.busRead (wordOf s.d s.e)) 1 s t) ∧
    decode [0x76] = .instr .hlt []

/-- MOV M,r; MVI M; STA; STAX: one byte is stored at H, L, at the direct address or at BC / DE, and nothing else changes;
in ROM nothing is stored (`40_data_transfer.md` R103, R105, R108, R112). The slot of MOV M,M is HLT. -/
def Obligations.StoreOneByte : Prop :=
  ∀ (r : Reg) (d8 : Byte) (addr : Word) (s : State),
    (decode [BitVec.ofNat 8 (0x70 + operandCode (.reg r))] = .instr (.mov .m (.reg r)) [] ∧
      ∃ t, exec (.mov .m (.reg r)) s = .next t ∧ StoresBytes [(wordOf s.h s.l, s.getReg r)] 1 s t) ∧
    (decode [0x36, d8] = .instr (.mvi .m d8) [] ∧
      ∃ t, exec (.mvi .m d8) s = .next t ∧ StoresBytes [(wordOf s.h s.l, d8)] 2 s t) ∧
    (decode [0x32, BitVec.ofNat 8 addr.toNat, BitVec.ofNat 8 (addr.toNat / 256)] = .instr (.sta addr) [] ∧
      ∃ t, exec (.sta addr) s = .next t ∧ StoresBytes [(addr, s.a)] 3 s t) ∧
    (decode [0x02] = .instr (.stax .bc) [] ∧
      ∃ t, exec (.stax .bc) s = .next t ∧ StoresBytes [(wordOf s.b s.c, s.a)] 1 s t) ∧
    (decode [0x12] = .instr (.stax .de) [] ∧
      ∃ t, exec (.stax .de) s = .next t ∧ StoresBytes [(wordOf s.d s.e, s.a)] 1 s t) ∧
    decode [0x76] = .instr .hlt []

/-- LXI: the pair takes the immediate, whose low byte is byte 2 and high byte byte 3 (`40_data_transfer.md` R106). -/
def Obligations.LoadPairImmediate : Prop :=
  ∀ (rp : RegPair) (low high : Byte) (s : State), ∃ t i,
    decode [BitVec.ofNat 8 (0x01 + 16 * pairCode rp), low, high] = .instr i [] ∧ i = .lxi rp (imm16 low high) ∧
    exec i s = .next t ∧
    (match rp with
      | .bc => t.c = low ∧ t.b = high ∧ t.sp = s.sp
      | .de => t.e = low ∧ t.d = high ∧ t.sp = s.sp
      | .hl => t.l = low ∧ t.h = high ∧ t.sp = s.sp
      | .sp => t.sp.toNat = 256 * high.toNat + low.toNat) ∧
    RegsKept (pairRegs rp) s t ∧ t.flags = s.flags ∧ MemKept s t ∧ t.pc = s.pc + 3 ∧ SystemKept s t

/-- LHLD: L takes the byte at the address, H the byte at the next address modulo 2^16; SHLD: L is stored at the address and H
at the next address modulo 2^16, each byte decoded on its own (`40_data_transfer.md` R109, R110). -/
def Obligations.HlDirect : Prop :=
  ∀ (addr : Word) (s : State),
    (decode [0x2A, BitVec.ofNat 8 addr.toNat, BitVec.ofNat 8 (addr.toNat / 256)] = .instr (.lhld addr) [] ∧
      ∃ t, exec (.lhld addr) s = .next t ∧
        t.l = s.busRead addr ∧ t.h = s.busRead (BitVec.ofNat 16 ((addr.toNat + 1) % 65536)) ∧
        RegsKept [.h, .l] s t ∧ t.sp = s.sp ∧ t.flags = s.flags ∧ MemKept s t ∧ t.pc = s.pc + 3 ∧ SystemKept s t) ∧
    (decode [0x22, BitVec.ofNat 8 addr.toNat, BitVec.ofNat 8 (addr.toNat / 256)] = .instr (.shld addr) [] ∧
      ∃ t, exec (.shld addr) s = .next t ∧
        StoresBytes [(addr, s.l), (BitVec.ofNat 16 ((addr.toNat + 1) % 65536), s.h)] 3 s t)

/-- XCHG swaps H with D and L with E, and two in a row restore the original values (`40_data_transfer.md` R113). -/
def Obligations.ExchangeHlDe : Prop :=
  ∀ s : State,
    decode [0xEB] = .instr .xchg [] ∧
    ∃ t, exec .xchg s = .next t ∧
      t.h = s.d ∧ t.d = s.h ∧ t.l = s.e ∧ t.e = s.l ∧
      RegsKept [.h, .l, .d, .e] s t ∧ t.sp = s.sp ∧ t.flags = s.flags ∧ MemKept s t ∧ t.pc = s.pc + 1 ∧
      SystemKept s t ∧
      ∃ u, exec .xchg t = .next u ∧ RegsKept [] s u

/-! ### Arithmetic -/

/-- ADD, ADI, ADC, ACI, every operand: A takes the sum modulo 2^8, CY the carry out of bit 7, AC the carry out of bit 3, Z,
S, P those of the result; nothing else changes (`41_arithmetic.md` R122 to R127). -/
def Obligations.AddIntoAccumulator : Prop :=
  ∀ (src : Operand8) (d8 : Byte) (s : State),
    (decode [BitVec.ofNat 8 (0x80 + operandCode src)] = .instr (.add src) [] ∧
      ∃ t, exec (.add src) s = .next t ∧ AccumulatorOnly 1 s t ∧
        AddFlags s.a.toNat (operandValue s src).toNat 0 t.a t.flags) ∧
    (decode [0xC6, d8] = .instr (.adi d8) [] ∧
      ∃ t, exec (.adi d8) s = .next t ∧ AccumulatorOnly 2 s t ∧
        AddFlags s.a.toNat d8.toNat 0 t.a t.flags) ∧
    (decode [BitVec.ofNat 8 (0x88 + operandCode src)] = .instr (.adc src) [] ∧
      ∃ t, exec (.adc src) s = .next t ∧ AccumulatorOnly 1 s t ∧
        AddFlags s.a.toNat (operandValue s src).toNat s.flags.cy.toNat t.a t.flags) ∧
    (decode [0xCE, d8] = .instr (.aci d8) [] ∧
      ∃ t, exec (.aci d8) s = .next t ∧ AccumulatorOnly 2 s t ∧
        AddFlags s.a.toNat d8.toNat s.flags.cy.toNat t.a t.flags)

/-- SUB, SUI, SBB, SBI, every operand: A takes the difference modulo 2^8, CY the borrow, Z, S, P those of the result, AC no
borrow out of the low nibble (the spec's decision D21); nothing else changes (`41_arithmetic.md` section 3). -/
def Obligations.SubtractFromAccumulator : Prop :=
  ∀ (src : Operand8) (d8 : Byte) (s : State),
    (∃ t, exec (.sub src) s = .next t ∧ AccumulatorOnly 1 s t ∧
      SubFlags s.a.toNat (operandValue s src).toNat 0 t.a t.flags) ∧
    (∃ t, exec (.sui d8) s = .next t ∧ AccumulatorOnly 2 s t ∧
      SubFlags s.a.toNat d8.toNat 0 t.a t.flags) ∧
    (∃ t, exec (.sbb src) s = .next t ∧ AccumulatorOnly 1 s t ∧
      SubFlags s.a.toNat (operandValue s src).toNat s.flags.cy.toNat t.a t.flags) ∧
    (∃ t, exec (.sbi d8) s = .next t ∧ AccumulatorOnly 2 s t ∧
      SubFlags s.a.toNat d8.toNat s.flags.cy.toNat t.a t.flags)

/-- CMP, CPI, every operand: the flags of the subtraction (AC by the spec's decision D21), A kept; Z exactly when equal, CY
exactly when A is below as unsigned numbers (`42_logical.md` section 5). -/
def Obligations.CompareWithAccumulator : Prop :=
  ∀ (src : Operand8) (d8 : Byte) (s : State),
    (∃ t r, exec (.cmp src) s = .next t ∧ AccumulatorOnly 1 s t ∧ t.a = s.a ∧
      SubFlags s.a.toNat (operandValue s src).toNat 0 r t.flags ∧
      (t.flags.z = true ↔ s.a = operandValue s src) ∧ (t.flags.cy = true ↔ s.a.toNat < (operandValue s src).toNat)) ∧
    (∃ t r, exec (.cpi d8) s = .next t ∧ AccumulatorOnly 2 s t ∧ t.a = s.a ∧
      SubFlags s.a.toNat d8.toNat 0 r t.flags ∧
      (t.flags.z = true ↔ s.a = d8) ∧ (t.flags.cy = true ↔ s.a.toNat < d8.toNat))

/-- INR r and INR M: the operand plus 1 modulo 2^8, Z, S, P of the result, AC the carry out of bit 3, CY kept; INR M on a ROM
address drops the write and sets the flags all the same (`41_arithmetic.md` R134, R135). -/
def Obligations.Increment : Prop :=
  ∀ (r : Reg) (s : State),
    (decode [BitVec.ofNat 8 (0x04 + 8 * operandCode (.reg r))] = .instr (.inr (.reg r)) [] ∧
      ∃ t, exec (.inr (.reg r)) s = .next t ∧
        (t.getReg r).toNat = ((s.getReg r).toNat + 1) % 256 ∧ ZspOf t.flags (t.getReg r) ∧
        (t.flags.ac = true ↔ (s.getReg r).toNat % 16 = 15) ∧ t.flags.cy = s.flags.cy ∧
        RegsKept [r] s t ∧ t.sp = s.sp ∧ MemKept s t ∧ t.pc = s.pc + 1 ∧ SystemKept s t) ∧
    (decode [0x34] = .instr (.inr .m) [] ∧
      ∃ t v, exec (.inr .m) s = .next t ∧
        v = BitVec.ofNat 8 ((s.busRead (wordOf s.h s.l)).toNat + 1) ∧ ZspOf t.flags v ∧
        (t.flags.ac = true ↔ (s.busRead (wordOf s.h s.l)).toNat % 16 = 15) ∧ t.flags.cy = s.flags.cy ∧
        MemAfter [(wordOf s.h s.l, v)] s t ∧
        RegsKept [] s t ∧ t.sp = s.sp ∧ t.pc = s.pc + 1 ∧ SystemKept s t)

/-- DCR r and DCR M: the operand minus 1 modulo 2^8, Z, S, P of the result, CY kept, AC set unless the low nibble was 0 (the
spec's decision D21) (`41_arithmetic.md` section 4). -/
def Obligations.Decrement : Prop :=
  ∀ (r : Reg) (s : State),
    (∃ t, exec (.dcr (.reg r)) s = .next t ∧
        (t.getReg r).toNat = ((s.getReg r).toNat + 255) % 256 ∧ ZspOf t.flags (t.getReg r) ∧
        (t.flags.ac = true ↔ (s.getReg r).toNat % 16 ≠ 0) ∧ t.flags.cy = s.flags.cy ∧
        RegsKept [r] s t ∧ t.sp = s.sp ∧ MemKept s t ∧ t.pc = s.pc + 1 ∧ SystemKept s t) ∧
    (∃ t v, exec (.dcr .m) s = .next t ∧
        v = BitVec.ofNat 8 ((s.busRead (wordOf s.h s.l)).toNat + 255) ∧ ZspOf t.flags v ∧
        (t.flags.ac = true ↔ (s.busRead (wordOf s.h s.l)).toNat % 16 ≠ 0) ∧ t.flags.cy = s.flags.cy ∧
        MemAfter [(wordOf s.h s.l, v)] s t ∧
        RegsKept [] s t ∧ t.sp = s.sp ∧ t.pc = s.pc + 1 ∧ SystemKept s t)

/-- INX, DCX on every pair: plus or minus 1 modulo 2^16, no flag written (`41_arithmetic.md` R138, R139). -/
def Obligations.StepPair : Prop :=
  ∀ (rp : RegPair) (s : State),
    (decode [BitVec.ofNat 8 (0x03 + 16 * pairCode rp)] = .instr (.inx rp) [] ∧
      ∃ t, exec (.inx rp) s = .next t ∧
        (t.getPair rp).toNat = ((s.getPair rp).toNat + 1) % 65536 ∧
        RegsKept (pairRegs rp) s t ∧ (rp ≠ .sp → t.sp = s.sp) ∧ t.flags = s.flags ∧ MemKept s t ∧
        t.pc = s.pc + 1 ∧ SystemKept s t) ∧
    (decode [BitVec.ofNat 8 (0x0B + 16 * pairCode rp)] = .instr (.dcx rp) [] ∧
      ∃ t, exec (.dcx rp) s = .next t ∧
        (t.getPair rp).toNat = ((s.getPair rp).toNat + 65535) % 65536 ∧
        RegsKept (pairRegs rp) s t ∧ (rp ≠ .sp → t.sp = s.sp) ∧ t.flags = s.flags ∧ MemKept s t ∧
        t.pc = s.pc + 1 ∧ SystemKept s t)

/-- DAD on every pair: HL takes the sum modulo 2^16, CY the carry out of bit 15, Z, S, P, AC kept (`41_arithmetic.md`
R140). -/
def Obligations.AddPairToHl : Prop :=
  ∀ (rp : RegPair) (s : State),
    decode [BitVec.ofNat 8 (0x09 + 16 * pairCode rp)] = .instr (.dad rp) [] ∧
    ∃ t, exec (.dad rp) s = .next t ∧
      (t.getPair .hl).toNat = ((s.getPair .hl).toNat + (s.getPair rp).toNat) % 65536 ∧
      (t.flags.cy = true ↔ (s.getPair .hl).toNat + (s.getPair rp).toNat > 65535) ∧
      t.flags.z = s.flags.z ∧ t.flags.s = s.flags.s ∧ t.flags.p = s.flags.p ∧ t.flags.ac = s.flags.ac ∧
      RegsKept [.h, .l] s t ∧ t.sp = s.sp ∧ MemKept s t ∧ t.pc = s.pc + 1 ∧ SystemKept s t

/-- A pair is its two registers, the first named one high (`10_state.md` R11); M is the byte they address (`30_encoding.md`
R72). -/
def Obligations.PairsAreTheirRegisters : Prop :=
  ∀ s : State,
    (s.getPair .bc).toNat = 256 * s.b.toNat + s.c.toNat ∧
    (s.getPair .de).toNat = 256 * s.d.toNat + s.e.toNat ∧
    (s.getPair .hl).toNat = 256 * s.h.toNat + s.l.toNat ∧
    s.getPair .sp = s.sp ∧
    s.read8 .m = s.busRead (BitVec.ofNat 16 (256 * s.h.toNat + s.l.toNat))

/-- DAA is the two-step correction (`41_arithmetic.md` section 6, the spec's decision D20): step 1 adds 6 when the low
nibble is above 9 or AC is set; step 2 adds 0x60 when the high part of the step-1 sum, its carry counted, is above 9 or CY is
set; AC is the carry out of bit 3 of step 1, CY is never cleared. -/
def Obligations.DecimalAdjustTwoSteps : Prop :=
  ∀ s : State,
    let sum1 : Nat := s.a.toNat + (if s.flags.ac = true ∨ s.a.toNat % 16 > 9 then 6 else 0)
    let sum2 : Nat := sum1 + (if s.flags.cy = true ∨ sum1 / 16 > 9 then 0x60 else 0)
    ∃ t, exec .daa s = .next t ∧ AccumulatorOnly 1 s t ∧ t.a.toNat = sum2 % 256 ∧ ZspOf t.flags t.a ∧
      (t.flags.ac = true ↔ (s.flags.ac = true ∨ s.a.toNat % 16 > 9) ∧ s.a.toNat % 16 + 6 > 15) ∧
      (t.flags.cy = true ↔ s.flags.cy = true ∨ sum1 / 16 > 9)

/-- ADI then DAA adds packed BCD: for two numbers below 100 the result is the BCD of their sum modulo 100 and CY the
hundreds (`41_arithmetic.md` section 6, "packed BCD correction after an addition"; the spec's decision D20). -/
def Obligations.DecimalAdjustAddsBcd : Prop :=
  ∀ (x y : Nat) (s : State), x < 100 → y < 100 → s.a.toNat = 16 * (x / 10) + x % 10 →
    ∃ t, execAll [.adi (BitVec.ofNat 8 (16 * (y / 10) + y % 10)), .daa] s = some t ∧
      t.a.toNat = 16 * ((x + y) % 100 / 10) + (x + y) % 10 ∧ (t.flags.cy = true ↔ x + y ≥ 100)

/-! ### Logical, rotate, carry -/

/-- ANA, ANI, every operand: A takes the AND, CY 0, Z, S, P of the result, AC the OR of bit 3 of the two operands (the spec's
decision D19, `AND_AC_RULE` = or_bit3) (`42_logical.md` sections 1 and 2). -/
def Obligations.AndIntoAccumulator : Prop :=
  ∀ (src : Operand8) (d8 : Byte) (s : State),
    (∃ t, exec (.ana src) s = .next t ∧ AccumulatorOnly 1 s t ∧
      t.a = s.a &&& operandValue s src ∧ ZspOf t.flags t.a ∧ t.flags.cy = false ∧
      (t.flags.ac = true ↔ s.a.getLsbD 3 = true ∨ (operandValue s src).getLsbD 3 = true)) ∧
    (∃ t, exec (.ani d8) s = .next t ∧ AccumulatorOnly 2 s t ∧
      t.a = s.a &&& d8 ∧ ZspOf t.flags t.a ∧ t.flags.cy = false ∧
      (t.flags.ac = true ↔ s.a.getLsbD 3 = true ∨ d8.getLsbD 3 = true))

/-- XRA, XRI, ORA, ORI, every operand: A takes the result, Z, S, P are its, CY and AC are 0 (`42_logical.md` R154 to
R159). -/
def Obligations.XorAndOrIntoAccumulator : Prop :=
  ∀ (src : Operand8) (d8 : Byte) (s : State),
    (decode [BitVec.ofNat 8 (0xA8 + operandCode src)] = .instr (.xra src) [] ∧
      ∃ t, exec (.xra src) s = .next t ∧ AccumulatorOnly 1 s t ∧
        t.a = s.a ^^^ operandValue s src ∧ ZspOf t.flags t.a ∧ t.flags.cy = false ∧ t.flags.ac = false) ∧
    (decode [0xEE, d8] = .instr (.xri d8) [] ∧
      ∃ t, exec (.xri d8) s = .next t ∧ AccumulatorOnly 2 s t ∧
        t.a = s.a ^^^ d8 ∧ ZspOf t.flags t.a ∧ t.flags.cy = false ∧ t.flags.ac = false) ∧
    (decode [BitVec.ofNat 8 (0xB0 + operandCode src)] = .instr (.ora src) [] ∧
      ∃ t, exec (.ora src) s = .next t ∧ AccumulatorOnly 1 s t ∧
        t.a = s.a ||| operandValue s src ∧ ZspOf t.flags t.a ∧ t.flags.cy = false ∧ t.flags.ac = false) ∧
    (decode [0xF6, d8] = .instr (.ori d8) [] ∧
      ∃ t, exec (.ori d8) s = .next t ∧ AccumulatorOnly 2 s t ∧
        t.a = s.a ||| d8 ∧ ZspOf t.flags t.a ∧ t.flags.cy = false ∧ t.flags.ac = false)

/-- RLC, RRC, RAL, RAR: A moves by one bit, CY takes the bit moved out, the bit moved in is that bit or the old CY; Z, S, P,
AC are kept (`42_logical.md` R163 to R166). -/
def Obligations.RotateAccumulator : Prop :=
  ∀ s : State,
    (decode [0x07] = .instr .rlc [] ∧
      ∃ t, exec .rlc s = .next t ∧ AccumulatorOnly 1 s t ∧ t.a.toNat = s.a.toNat * 2 % 256 + s.a.toNat / 128 ∧
        (t.flags.cy = true ↔ s.a.toNat ≥ 128) ∧ OnlyCarryChanged s t) ∧
    (decode [0x0F] = .instr .rrc [] ∧
      ∃ t, exec .rrc s = .next t ∧ AccumulatorOnly 1 s t ∧ t.a.toNat = s.a.toNat / 2 + 128 * (s.a.toNat % 2) ∧
        (t.flags.cy = true ↔ s.a.toNat % 2 = 1) ∧ OnlyCarryChanged s t) ∧
    (decode [0x17] = .instr .ral [] ∧
      ∃ t, exec .ral s = .next t ∧ AccumulatorOnly 1 s t ∧ t.a.toNat = s.a.toNat * 2 % 256 + s.flags.cy.toNat ∧
        (t.flags.cy = true ↔ s.a.toNat ≥ 128) ∧ OnlyCarryChanged s t) ∧
    (decode [0x1F] = .instr .rar [] ∧
      ∃ t, exec .rar s = .next t ∧ AccumulatorOnly 1 s t ∧ t.a.toNat = s.a.toNat / 2 + 128 * s.flags.cy.toNat ∧
        (t.flags.cy = true ↔ s.a.toNat % 2 = 1) ∧ OnlyCarryChanged s t)

/-- Nine RAL in a row restore A and CY, and so do nine RAR; eight RLC restore A (`42_logical.md` section 6, the 9-bit and
the 8-bit rotation). -/
def Obligations.FullRotationRestores : Prop :=
  ∀ s : State,
    (∃ t, execAll (List.replicate 9 .ral) s = some t ∧ t.a = s.a ∧ t.flags = s.flags ∧ t.pc = s.pc + 9) ∧
    (∃ t, execAll (List.replicate 9 .rar) s = some t ∧ t.a = s.a ∧ t.flags = s.flags ∧ t.pc = s.pc + 9) ∧
    (∃ t, execAll (List.replicate 8 .rlc) s = some t ∧ t.a = s.a ∧ t.pc = s.pc + 8)

/-- CMA complements A and writes no flag; CMC complements CY and STC sets it, each keeping Z, S, P, AC and A
(`42_logical.md` R167 to R169). -/
def Obligations.ComplementAndCarry : Prop :=
  ∀ s : State,
    (decode [0x2F] = .instr .cma [] ∧
      ∃ t, exec .cma s = .next t ∧ AccumulatorOnly 1 s t ∧ t.a.toNat = 255 - s.a.toNat ∧ t.flags = s.flags ∧
        ∃ u, exec .cma t = .next u ∧ u.a = s.a) ∧
    (decode [0x3F] = .instr .cmc [] ∧
      ∃ t, exec .cmc s = .next t ∧ AccumulatorOnly 1 s t ∧ t.a = s.a ∧ t.flags = { s.flags with cy := !s.flags.cy }) ∧
    (decode [0x37] = .instr .stc [] ∧
      ∃ t, exec .stc s = .next t ∧ AccumulatorOnly 1 s t ∧ t.a = s.a ∧ t.flags = { s.flags with cy := true })

/-! ### Branch -/

/-- JMP and PCHL: PC takes the immediate, or H, L; the eight Jcc: the immediate when the flag has the value of the
condition, else the next instruction; nothing else changes (`43_branch.md` R181, R182, R188). -/
def Obligations.JumpsSetPc : Prop :=
  ∀ (addr : Word) (s : State),
    (decode [0xC3, BitVec.ofNat 8 addr.toNat, BitVec.ofNat 8 (addr.toNat / 256)] = .instr (.jmp addr) [] ∧
      JumpsWhen True (.jmp addr) addr s) ∧
    (decode [0xE9] = .instr .pchl [] ∧ JumpsWhen True .pchl (wordOf s.h s.l) s) ∧
    (decode [0xC2, BitVec.ofNat 8 addr.toNat, BitVec.ofNat 8 (addr.toNat / 256)] = .instr (.jnz addr) [] ∧
      JumpsWhen (s.flags.z = false) (.jnz addr) addr s) ∧
    (decode [0xCA, BitVec.ofNat 8 addr.toNat, BitVec.ofNat 8 (addr.toNat / 256)] = .instr (.jz addr) [] ∧
      JumpsWhen (s.flags.z = true) (.jz addr) addr s) ∧
    (decode [0xD2, BitVec.ofNat 8 addr.toNat, BitVec.ofNat 8 (addr.toNat / 256)] = .instr (.jnc addr) [] ∧
      JumpsWhen (s.flags.cy = false) (.jnc addr) addr s) ∧
    (decode [0xDA, BitVec.ofNat 8 addr.toNat, BitVec.ofNat 8 (addr.toNat / 256)] = .instr (.jc addr) [] ∧
      JumpsWhen (s.flags.cy = true) (.jc addr) addr s) ∧
    (decode [0xE2, BitVec.ofNat 8 addr.toNat, BitVec.ofNat 8 (addr.toNat / 256)] = .instr (.jpo addr) [] ∧
      JumpsWhen (s.flags.p = false) (.jpo addr) addr s) ∧
    (decode [0xEA, BitVec.ofNat 8 addr.toNat, BitVec.ofNat 8 (addr.toNat / 256)] = .instr (.jpe addr) [] ∧
      JumpsWhen (s.flags.p = true) (.jpe addr) addr s) ∧
    (decode [0xF2, BitVec.ofNat 8 addr.toNat, BitVec.ofNat 8 (addr.toNat / 256)] = .instr (.jp addr) [] ∧
      JumpsWhen (s.flags.s = false) (.jp addr) addr s) ∧
    (decode [0xFA, BitVec.ofNat 8 addr.toNat, BitVec.ofNat 8 (addr.toNat / 256)] = .instr (.jm addr) [] ∧
      JumpsWhen (s.flags.s = true) (.jm addr) addr s)

/-- CALL pushes the address after it, high byte at SP - 1, low byte at SP - 2, takes SP down by 2 and PC to the target; the
eight Ccc do so when the condition holds, else only PC advances by 3; RST n is a one-byte call to 8 n that leaves INTE alone
(`43_branch.md` R183, R184, R187). -/
def Obligations.CallsPushTheReturnAddress : Prop :=
  ∀ (addr : Word) (n : Fin 8) (s : State),
    (decode [0xCD, BitVec.ofNat 8 addr.toNat, BitVec.ofNat 8 (addr.toNat / 256)] = .instr (.call addr) [] ∧
      CallsWhen True (.call addr) addr s) ∧
    (decode [BitVec.ofNat 8 (0xC7 + 8 * n.val)] = .instr (.rst n) [] ∧
      ∃ t, exec (.rst n) s = .next t ∧ ControlTransfer s t ∧ t.pc.toNat = 8 * n.val ∧
        PushesWord (s.pc + 1).toNat s t) ∧
    (decode [0xC4, BitVec.ofNat 8 addr.toNat, BitVec.ofNat 8 (addr.toNat / 256)] = .instr (.cnz addr) [] ∧
      CallsWhen (s.flags.z = false) (.cnz addr) addr s) ∧
    (decode [0xCC, BitVec.ofNat 8 addr.toNat, BitVec.ofNat 8 (addr.toNat / 256)] = .instr (.cz addr) [] ∧
      CallsWhen (s.flags.z = true) (.cz addr) addr s) ∧
    (decode [0xD4, BitVec.ofNat 8 addr.toNat, BitVec.ofNat 8 (addr.toNat / 256)] = .instr (.cnc addr) [] ∧
      CallsWhen (s.flags.cy = false) (.cnc addr) addr s) ∧
    (decode [0xDC, BitVec.ofNat 8 addr.toNat, BitVec.ofNat 8 (addr.toNat / 256)] = .instr (.cc addr) [] ∧
      CallsWhen (s.flags.cy = true) (.cc addr) addr s) ∧
    (decode [0xE4, BitVec.ofNat 8 addr.toNat, BitVec.ofNat 8 (addr.toNat / 256)] = .instr (.cpo addr) [] ∧
      CallsWhen (s.flags.p = false) (.cpo addr) addr s) ∧
    (decode [0xEC, BitVec.ofNat 8 addr.toNat, BitVec.ofNat 8 (addr.toNat / 256)] = .instr (.cpe addr) [] ∧
      CallsWhen (s.flags.p = true) (.cpe addr) addr s) ∧
    (decode [0xF4, BitVec.ofNat 8 addr.toNat, BitVec.ofNat 8 (addr.toNat / 256)] = .instr (.cp addr) [] ∧
      CallsWhen (s.flags.s = false) (.cp addr) addr s) ∧
    (decode [0xFC, BitVec.ofNat 8 addr.toNat, BitVec.ofNat 8 (addr.toNat / 256)] = .instr (.cm addr) [] ∧
      CallsWhen (s.flags.s = true) (.cm addr) addr s)

/-- RET takes PC from the word at SP, low byte at SP, and SP up by 2; the eight Rcc do so when the condition holds, else only
PC advances by 1 (`43_branch.md` R185, R186). -/
def Obligations.ReturnsPopThePc : Prop :=
  ∀ s : State,
    (decode [0xC9] = .instr .ret [] ∧ ReturnsWhen True .ret s) ∧
    (decode [0xC0] = .instr .rnz [] ∧
      ReturnsWhen (s.flags.z = false) .rnz s) ∧
    (decode [0xC8] = .instr .rz [] ∧
      ReturnsWhen (s.flags.z = true) .rz s) ∧
    (decode [0xD0] = .instr .rnc [] ∧
      ReturnsWhen (s.flags.cy = false) .rnc s) ∧
    (decode [0xD8] = .instr .rc [] ∧
      ReturnsWhen (s.flags.cy = true) .rc s) ∧
    (decode [0xE0] = .instr .rpo [] ∧
      ReturnsWhen (s.flags.p = false) .rpo s) ∧
    (decode [0xE8] = .instr .rpe [] ∧
      ReturnsWhen (s.flags.p = true) .rpe s) ∧
    (decode [0xF0] = .instr .rp [] ∧
      ReturnsWhen (s.flags.s = false) .rp s) ∧
    (decode [0xF8] = .instr .rm [] ∧
      ReturnsWhen (s.flags.s = true) .rm s)

/-- A call followed at its target by RET comes back to the instruction after the call with SP, registers and flags as
before, when the two stack bytes are in RAM; in ROM the return address is lost (`43_branch.md` sections on R180, R183,
R185). -/
def Obligations.CallThenReturn : Prop :=
  ∀ (addr : Word) (s : State), regionOf (s.sp - 1) = .ram → regionOf (s.sp - 2) = .ram →
    ∃ t, execAll [.call addr, .ret] s = some t ∧ t.pc = s.pc + 3 ∧ t.sp = s.sp ∧
      RegsKept [] s t ∧ t.flags = s.flags ∧
      ∀ a, a ≠ s.sp - 1 → a ≠ s.sp - 2 → t.busRead a = s.busRead a

/-! ### Stack, I/O, control -/

/-- PUSH: the high register goes to SP - 1, the low one to SP - 2, SP down by 2; PSW is A with the flag byte
`S Z 0 AC 0 P 1 CY`, whose bits 5, 3, 1 are the spec's decision D18 (log 7) (`44_stack_io_control.md` section 1). -/
def Obligations.PushPair : Prop :=
  ∀ (rp : StackPair) (s : State),
    decode [BitVec.ofNat 8 (0xC5 + 16 * stackPairCode rp)] = .instr (.push rp) [] ∧
    ∃ t, exec (.push rp) s = .next t ∧
      PushesWord
        (match rp with
          | .bc => 256 * s.b.toNat + s.c.toNat
          | .de => 256 * s.d.toNat + s.e.toNat
          | .hl => 256 * s.h.toNat + s.l.toNat
          | .psw => 256 * s.a.toNat + (128 * s.flags.s.toNat + 64 * s.flags.z.toNat + 16 * s.flags.ac.toNat +
              4 * s.flags.p.toNat + 2 + s.flags.cy.toNat)) s t ∧
      RegsKept [] s t ∧ t.flags = s.flags ∧ t.pc = s.pc + 1 ∧ SystemKept s t

/-- POP: the low register takes the byte at SP, the high one the byte at SP + 1, SP up by 2; POP PSW takes S, Z, AC, P, CY
from bits 7, 6, 4, 2, 0 and A from SP + 1 (`44_stack_io_control.md` R203, R204). -/
def Obligations.PopPair : Prop :=
  ∀ (rp : StackPair) (s : State),
    decode [BitVec.ofNat 8 (0xC1 + 16 * stackPairCode rp)] = .instr (.pop rp) [] ∧
    ∃ t, exec (.pop rp) s = .next t ∧
      (match rp with
        | .bc => t.c = s.busRead s.sp ∧ t.b = s.busRead (s.sp + 1) ∧ t.flags = s.flags
        | .de => t.e = s.busRead s.sp ∧ t.d = s.busRead (s.sp + 1) ∧ t.flags = s.flags
        | .hl => t.l = s.busRead s.sp ∧ t.h = s.busRead (s.sp + 1) ∧ t.flags = s.flags
        | .psw => t.a = s.busRead (s.sp + 1) ∧
            (t.flags.s = true ↔ (s.busRead s.sp).toNat / 128 % 2 = 1) ∧
            (t.flags.z = true ↔ (s.busRead s.sp).toNat / 64 % 2 = 1) ∧
            (t.flags.ac = true ↔ (s.busRead s.sp).toNat / 16 % 2 = 1) ∧
            (t.flags.p = true ↔ (s.busRead s.sp).toNat / 4 % 2 = 1) ∧
            (t.flags.cy = true ↔ (s.busRead s.sp).toNat % 2 = 1)) ∧
      t.sp = s.sp + 2 ∧ RegsKept (stackPairRegs rp) s t ∧ MemKept s t ∧ t.pc = s.pc + 1 ∧ SystemKept s t

/-- With the stack bytes in RAM, PUSH then POP of the same pair restores it, the flags for PSW, and SP; POP PSW then PUSH PSW
writes the popped byte back with bits 5 and 3 cleared and bit 1 set, the spec's decision D18 (`44_stack_io_control.md`
section 1, `10_state.md` section 3). -/
def Obligations.PushThenPopRestores : Prop :=
  (∀ (rp : StackPair) (s : State), regionOf (s.sp - 1) = .ram → regionOf (s.sp - 2) = .ram →
    ∃ t, execAll [.push rp, .pop rp] s = some t ∧
      RegsKept [] s t ∧ t.flags = s.flags ∧ t.sp = s.sp ∧ t.pc = s.pc + 2) ∧
  ∀ s : State, regionOf s.sp = .ram →
    ∃ t, execAll [.pop .psw, .push .psw] s = some t ∧ t.sp = s.sp ∧
      t.busRead s.sp = (s.busRead s.sp &&& 0xD7) ||| 0x02 ∧ t.busRead (s.sp + 1) = s.busRead (s.sp + 1)

/-- XTHL exchanges HL with the word at SP, both reads before both writes; SP is kept (`44_stack_io_control.md` R205). -/
def Obligations.ExchangeStackTop : Prop :=
  ∀ s : State,
    decode [0xE3] = .instr .xthl [] ∧
    ∃ t, exec .xthl s = .next t ∧
      t.l = s.busRead s.sp ∧ t.h = s.busRead (s.sp + 1) ∧
      MemAfter [(s.sp, s.l), (s.sp + 1, s.h)] s t ∧
      RegsKept [.h, .l] s t ∧ t.sp = s.sp ∧ t.flags = s.flags ∧ t.pc = s.pc + 1 ∧ SystemKept s t

/-- SPHL loads SP from HL (`44_stack_io_control.md` R206); NOP only advances PC (the operation of section 3; that no other byte
is a NOP is FirstByteDecides). -/
def Obligations.LoadSpAndNop : Prop :=
  ∀ s : State,
    (decode [0xF9] = .instr .sphl [] ∧
      ∃ t, exec .sphl s = .next t ∧ t.sp.toNat = 256 * s.h.toNat + s.l.toNat ∧
        RegsKept [] s t ∧ t.flags = s.flags ∧ MemKept s t ∧ t.pc = s.pc + 1 ∧ SystemKept s t) ∧
    (decode [0x00] = .instr .nop [] ∧
      ∃ t, exec .nop s = .next t ∧ t.sp = s.sp ∧
        RegsKept [] s t ∧ t.flags = s.flags ∧ MemKept s t ∧ t.pc = s.pc + 1 ∧ SystemKept s t)

/-- IN: A takes the scanner byte for port 0x06 (the spec's decision D8; `KEY_PATTERN` and `KEY_IDLE` are free values, log 4),
the input latch for every other port (D11); no flag and nothing else changes (`44_stack_io_control.md` section 2). The byte
is that of the host operation before the tick: pressKey, releaseKey, or setInputPort (`60_exceptions.md` sections 5, 6). -/
def Obligations.InputFromPort : Prop :=
  (∀ (port : Byte) (s : State), ∃ t, exec (.inp port) s = .next t ∧
    LoadsRegister .a
      (if port = 0x06 then (match s.key with | some code => Config.keyPattern code | none => Config.keyIdle)
        else s.inputLatch port) 2 s t) ∧
  ∀ (s : State) (code port v : Byte),
    (∃ t, exec (.inp 0x06) (s.pressKey code) = .next t ∧ t.a = Config.keyPattern code) ∧
    (∃ t, exec (.inp 0x06) s.releaseKey = .next t ∧ t.a = Config.keyIdle) ∧
    (port ≠ 0x06 → ∃ t, exec (.inp port) (s.setInputPort port v) = .next t ∧ t.a = v)

/-- OUT: the output latch of the port takes A; after a write to port 0x06 or 0x07 every digit whose bit is set in the scan
latch 0x07 holds the segment latch 0x06, every other digit is kept; in the interrupt extension the EI shadow is cleared and
a pending request stays (`60_exceptions.md` section 2, the spec's decision D31; log 10, DEDUCED); the input latches, the
other output latches and the rest are kept (`44_stack_io_control.md` section 2, `60_exceptions.md` section 4; the spec's
decisions D8, D9, D11). -/
def Obligations.OutputToPort : Prop :=
  ∀ (port : Byte) (s : State), ∃ t, exec (.outp port) s = .next t ∧
    (∀ q, t.outputLatch q = if q = port then s.a else s.outputLatch q) ∧
    (∀ i : Fin 6, t.readDigit i =
      if (port = 0x06 ∨ port = 0x07) ∧ (t.outputLatch 0x07).getLsbD i.val = true then t.outputLatch 0x06
      else s.readDigit i) ∧
    t.pin = s.pin ∧ t.key = s.key ∧ t.run = s.run ∧ t.inte = s.inte ∧
    t.intExt = s.intExt.map (fun x => { pending := x.pending, eiShadow := false }) ∧
    RegsKept [] s t ∧ t.sp = s.sp ∧ t.flags = s.flags ∧ MemKept s t ∧ t.pc = s.pc + 2

/-- DI clears INTE, and in the extension the EI shadow, and does not discard a pending request; without the extension nothing
changes but INTE, which nothing reads, and PC (`44_stack_io_control.md` R210). -/
def Obligations.DisableInterrupts : Prop :=
  ∀ s : State,
    decode [0xF3] = .instr .di [] ∧
    ∃ t, exec .di s = .next t ∧ t.inte = false ∧
      t.intExt = s.intExt.map (fun x => { pending := x.pending, eiShadow := false }) ∧
      t.run = s.run ∧ t.pin = s.pin ∧ t.pout = s.pout ∧ t.digits = s.digits ∧ t.key = s.key ∧
      RegsKept [] s t ∧ t.sp = s.sp ∧ t.flags = s.flags ∧ MemKept s t ∧ t.pc = s.pc + 1 ∧
      (s.intExt = none → t = { s with inte := false, pc := s.pc + 1 })

/-- EI sets INTE and, in the extension, the EI shadow (`44_stack_io_control.md` section 3, `60_exceptions.md` section 2; the
spec's decision D31), so that the tick after it never accepts an interrupt. -/
def Obligations.EnableInterruptsShieldsOneInstruction : Prop :=
  ∀ s : State, ∃ t, exec .ei s = .next t ∧ t.inte = true ∧
    t.intExt = s.intExt.map (fun x => { pending := x.pending, eiShadow := true }) ∧
    t.run = s.run ∧ t.pin = s.pin ∧ t.pout = s.pout ∧ t.digits = s.digits ∧ t.key = s.key ∧
    RegsKept [] s t ∧ t.sp = s.sp ∧ t.flags = s.flags ∧ MemKept s t ∧ t.pc = s.pc + 1 ∧
    t.acceptable = none

/-- HLT: PC advances by 1 and run becomes Halted (the spec's decision D4); in the interrupt extension the EI shadow is
cleared and a pending request stays (`60_exceptions.md` section 2, the spec's decision D31; log 10, DEDUCED); registers, flags,
INTE, memory, ports, display and keyboard are kept, and the tick reports ok (`44_stack_io_control.md` section 3). -/
def Obligations.HaltInstruction : Prop :=
  ∀ s : State, ∃ t, exec .hlt s = .next t ∧ t.run = .halted ∧ t.pc = s.pc + 1 ∧ t.inte = s.inte ∧
    t.intExt = s.intExt.map (fun x => { pending := x.pending, eiShadow := false }) ∧
    t.pin = s.pin ∧ t.pout = s.pout ∧ t.digits = s.digits ∧ t.key = s.key ∧
    RegsKept [] s t ∧ t.sp = s.sp ∧ t.flags = s.flags ∧ MemKept s t ∧
    (s.fetch = .hlt → s.tickResult = .ok)

/-- The flag table (`10_state.md` R17): which flags each instruction leaves alone, clears, sets or complements. Rows whose
flags are all written from the result are not listed; their values are in the statements of those instructions. -/
def Obligations.FlagTable : Prop :=
  ∀ (i : Instr) (s t : State), exec i s = .next t →
    match i with
    | .add _ | .adc _ | .adi _ | .aci _ | .sub _ | .sbb _ | .sui _ | .sbi _ | .cmp _ | .cpi _ | .daa | .pop .psw => True
    | .inr _ | .dcr _ => t.flags.cy = s.flags.cy
    | .ana _ | .ani _ => t.flags.cy = false
    | .xra _ | .xri _ | .ora _ | .ori _ => t.flags.cy = false ∧ t.flags.ac = false
    | .rlc | .rrc | .ral | .rar | .dad _ => { t.flags with cy := s.flags.cy } = s.flags
    | .stc => t.flags = { s.flags with cy := true }
    | .cmc => t.flags = { s.flags with cy := !s.flags.cy }
    | _ => t.flags = s.flags

/-! ### Whole-machine rules -/

/-- No tick changes a ROM byte, in any state: the only way ROM contents change is the host operation loadImage
(`20_memory.md` section 1; bounds by the spec's decision D5, writes ignored by D6). -/
def Obligations.TicksNeverChangeRom : Prop :=
  ∀ (n : Nat) (s t : State), Sys2Proof.core.run n s = .next t →
    ∀ addr : Word, addr.toNat < 0x0800 → t.busRead addr = s.busRead addr

/-- Every tick keeps the canonical form of memory and of both latch arrays (the model's representation of `10_state.md` R21,
R22). -/
def Obligations.TickKeepsCanonicalForm : Prop :=
  ∀ s t : State, s.Inv → step s = .next t → t.Inv

/-- The state after reset is canonical, and holds what `10_state.md` section 8 gives: PC 0x0000, Running, INTE 0, digits 0x00,
no key, no interrupt extension (the spec's decisions D12, D14, D16); the zero registers, memory and latches are the open
parameters at their defaults (log 1, 2, 3). -/
def Obligations.ResetState : Prop :=
  State.reset.Inv ∧ State.reset.pc = 0x0000 ∧ State.reset.run = .running ∧ State.reset.inte = false ∧
  (∀ i : Fin 6, State.reset.readDigit i = 0x00) ∧ State.reset.key = none ∧ State.reset.intExt = none ∧
  (∀ r : Reg, State.reset.getReg r = 0x00) ∧ State.reset.sp = 0x0000 ∧ State.reset.flags.toByte = 0x02 ∧
  (∀ addr, State.reset.busRead addr = 0x00) ∧
  ∀ port, State.reset.inputLatch port = 0x00 ∧ State.reset.outputLatch port = 0x00

/-- No tick changes the keyboard state, an input latch, or whether the interrupt extension exists (`60_exceptions.md` R245,
`20_memory.md` R52, `10_state.md` R25; two latch arrays by the spec's decision D11). -/
def Obligations.TicksNeverChangeHostInputs : Prop :=
  ∀ (n : Nat) (s t : State), Sys2Proof.core.run n s = .next t →
    t.key = s.key ∧ t.pin = s.pin ∧ t.intExt.isSome = s.intExt.isSome

/-- Only an OUT changes an output latch, and only an OUT to a display port, 0x06 or 0x07, changes a digit
(`60_exceptions.md` section 4, `20_memory.md` section 3; the spec's decision D8). -/
def Obligations.OnlyOutDrivesPortsAndDisplay : Prop :=
  ∀ s t : State, step s = .next t →
    (t.pout ≠ s.pout → ∃ port, s.fetch = .outp port) ∧
    (t.digits ≠ s.digits → s.fetch = .outp 0x06 ∨ s.fetch = .outp 0x07)

/-- Without an interrupt input INTE is unobservable: two runs that differ only in INTE differ at most in INTE after any
number of ticks, and every tick reports the same (`10_state.md` R19, `60_exceptions.md` R227; the spec's decision D16). -/
def Obligations.InteIsUnobservable : Prop :=
  ∀ (n : Nat) (s : State) (inte : Bool), s.intExt = none →
    ∃ t inte', Sys2Proof.core.run n s = .next t ∧
      Sys2Proof.core.run n { s with inte := inte } = .next { t with inte := inte' } ∧
      State.tickResult { t with inte := inte' } = t.tickResult

/-- The keyboard reaches a program only through IN from port 0x06: a tick that executes anything else gives, from two states
that differ only in the key, states that differ only in the key (`60_exceptions.md` section 5; the spec's decision D8). -/
def Obligations.KeyReachesOnlyIn : Prop :=
  ∀ (s : State) (key : Option Byte), s.fetch ≠ .inp 0x06 →
    ∃ t, step s = .next t ∧ step { s with key := key } = .next { t with key := key }

/-! ### Interrupt extension -/

/-- Acceptance (`60_exceptions.md` section 2, the spec's decision D16): Running, request n pending, INTE 1, no EI shadow; the
tick pushes PC, the address of the instruction not yet executed, clears INTE and the request, and goes to 8 n; registers and
flags are kept, and no byte is fetched. -/
def Obligations.InterruptAcceptance : Prop :=
  ∀ (n : Fin 8) (s : State), s.run = .running → s.inte = true →
    s.intExt = some { pending := some n, eiShadow := false } →
    ∃ t, step s = .next t ∧ PushesWord s.pc.toNat s t ∧ t.pc.toNat = 8 * n.val ∧ t.inte = false ∧
      t.intExt = some { pending := none, eiShadow := false } ∧ t.run = .running ∧
      RegsKept [] s t ∧ t.flags = s.flags ∧
      t.pin = s.pin ∧ t.pout = s.pout ∧ t.digits = s.digits ∧ t.key = s.key ∧ s.tickResult = .ok

/-- The EI shadow (`60_exceptions.md` section 2, the spec's decision D31): EI sets it, every other instruction that completes
clears it; an illegal byte completes no instruction and keeps it (the model's reading, log 10). -/
def Obligations.EiShadowAfterEveryInstruction : Prop :=
  ∀ (i : Instr) (s t : State), exec i s = .next t →
    t.intExt = match i with
      | .ei => s.intExt.map fun x => { pending := x.pending, eiShadow := true }
      | .illegal _ => s.intExt
      | _ => s.intExt.map fun x => { pending := x.pending, eiShadow := false }

/-- A request stays pending through every tick that does not accept it: with INTE 0, in the EI shadow, or not Running
(`60_exceptions.md` section 2, the spec's decision D16). -/
def Obligations.RequestStaysPending : Prop :=
  ∀ (n : Fin 8) (shadow : Bool) (s t : State), s.intExt = some { pending := some n, eiShadow := shadow } →
    s.inte = false ∨ shadow = true ∨ s.run ≠ .running → step s = .next t →
    ∃ shadow', t.intExt = some { pending := some n, eiShadow := shadow' }

/-! ### Memory and host interface -/

/-- Read after write. Memory: a byte written to an address of the RAM region reads back, one written to 0x0000..0x07FF is
ignored, every other address reads as before (`20_memory.md` section 1, the spec's decisions D5, D6). Digits: the written
digit reads back, every other keeps its pattern (`60_exceptions.md` section 4). Ports: an input latch reads back, every other
latch, and every output latch, keeps its value (`20_memory.md` section 3, the spec's decision D11). -/
def Obligations.ReadAfterWrite : Prop :=
  ∀ (s : State) (addr other : Word) (i : Fin 6) (port v : Byte),
    (addr.toNat ≥ 0x0800 → (s.busWrite addr v).busRead addr = v) ∧
    (addr.toNat < 0x0800 → s.busWrite addr v = s) ∧
    (other ≠ addr → (s.busWrite addr v).busRead other = s.busRead other) ∧
    (∀ j, (s.writeDigit i v).getDisplayDigit j = if j = i then v else s.getDisplayDigit j) ∧
    (∀ q, (s.setInputPort port v).inputLatch q = if q = port then v else s.inputLatch q) ∧
    ∀ q, (s.setInputPort port v).getOutputPort q = s.getOutputPort q

/-- A store is seen by the fetch of the very next instruction: a one-byte instruction that MOV M,A writes right after
itself in RAM is the one the next tick fetches (`20_memory.md` R57, the spec's decision D26). -/
def Obligations.StoreSeenByNextFetch : Prop :=
  ∀ (s : State) (i : Instr), wordOf s.h s.l = s.pc + 1 → regionOf (s.pc + 1) = .ram → decode [s.a] = .instr i [] →
    ∃ t, exec (.mov .m (.reg .a)) s = .next t ∧ t.pc = s.pc + 1 ∧ t.fetch = i

/-- loadImage: an image of at most 2048 bytes is copied to 0x0000 up, the bytes beyond it keep their value and nothing but
memory changes; a longer one is refused with no state (`70_reset_and_hazards.md` section 2, the spec's decisions D5, D15). -/
def Obligations.LoadImage : Prop :=
  ∀ (img : List Byte) (s : State),
    (img.length > 2048 → s.loadImage img = none) ∧
    (img.length ≤ 2048 → ∃ t, s.loadImage img = some t ∧ { t with mem := s.mem } = s ∧
      ∀ addr : Word, t.busRead addr = (img[addr.toNat]?).getD (s.busRead addr))

/-- restart resets the CPU and keeps memory, ports and keyboard, whatever `RESET_REGS` is, and the CPU part agrees with
power-on (`70_reset_and_hazards.md` section 1; the spec's decisions D12, D13). The digits are left out: no claim may depend on
them across a restart (`10_state.md` section 8, log 16). -/
def Obligations.RestartResetsTheCpuOnly : Prop :=
  ∀ (regs : ResetRegs) (s : State),
    { s.restartWith regs with digits := s.digits } =
      { State.powerOn regs s.intExt.isSome with
        mem := s.mem, pin := s.pin, pout := s.pout, digits := s.digits, key := s.key }

/-- Over any sequence of host operations and ticks a live session stays canonical, and every session made by create is
(`20_memory.md` R55; the model's sessions, log 11). -/
def Obligations.SessionsStayCanonical : Prop :=
  ∀ (ops : List HostOp) (start finish : Session) (outs : List HostResult),
    (∀ s, start = .live s → s.Inv) → start.run ops = .next (finish, outs) → ∀ t, finish = .live t → t.Inv
end

