-- ==== Sys2Proof/Laws/Cells.lean ====
section
/-! SUPPORT. The laws of sparse byte arrays: read after write, and that a write keeps the canonical form. -/

namespace Sys2Proof.Machine

theorem Cells.wfFrom_mono {dflt : Byte} {bound lo lo' : Nat} {m : List Host.Cell} (h : lo' ≤ lo)
    (hm : Cells.wfFrom dflt bound lo m = true) : Cells.wfFrom dflt bound lo' m = true := by
  cases m with
  | nil => rfl
  | cons p rest =>
    obtain ⟨k, v⟩ := p
    simp only [Cells.wfFrom, Bool.and_eq_true, decide_eq_true_eq] at hm ⊢
    exact ⟨⟨⟨h.trans hm.1.1.1, hm.1.1.2⟩, hm.1.2⟩, hm.2⟩

/-- A key below every listed key reads as the default. -/
theorem Cells.get_of_lt {dflt : Byte} {bound lo k : Nat} {m : List Host.Cell}
    (hm : Cells.wfFrom dflt bound lo m = true) (h : k < lo) : Cells.get dflt m k = dflt := by
  induction m generalizing lo with
  | nil => rfl
  | cons p rest ih =>
    obtain ⟨k', v⟩ := p
    simp only [Cells.wfFrom, Bool.and_eq_true, decide_eq_true_eq] at hm
    have hne : k' ≠ k := by omega
    rw [Cells.get, if_neg hne]
    exact ih hm.2 (by omega)

@[simp] theorem Cells.get_insert (dflt : Byte) (m : List Host.Cell) (k k' : Nat) (v : Byte) :
    Cells.get dflt (Cells.insert m k v) k' = if k' = k then v else Cells.get dflt m k' := by
  induction m with
  | nil => simp [Cells.insert, Cells.get, eq_comm]
  | cons p rest ih =>
    obtain ⟨k₀, v₀⟩ := p
    unfold Cells.insert
    by_cases h₁ : k < k₀
    · by_cases h : k' = k <;> simp [h₁, h, Cells.get, eq_comm]
      intro h'
      exact absurd h'.symm h
    · by_cases h₂ : k = k₀
      · subst h₂
        by_cases h : k' = k <;> simp [h, Cells.get, eq_comm (a := k)]
      · simp only [h₁, h₂, if_false, Cells.get, ih]
        by_cases h : k₀ = k'
        · subst h; simp [Ne.symm h₂]
        · simp [h]

@[simp] theorem Cells.get_erase (dflt : Byte) (m : List Host.Cell) (k k' : Nat) :
    Cells.get dflt (Cells.erase m k) k' = if k' = k then dflt else Cells.get dflt m k' := by
  induction m with
  | nil => simp [Cells.erase, Cells.get]
  | cons p rest ih =>
    obtain ⟨k₀, v₀⟩ := p
    simp only [Cells.erase]
    by_cases h : k₀ = k
    · subst h
      by_cases h' : k' = k₀
      · subst h'; simpa using ih
      · simp [ih, h', Cells.get, Ne.symm h']
    · simp only [h, if_false, Cells.get, ih]
      by_cases h' : k₀ = k'
      · subst h'; simp [h]
      · simp [h']

/-- Read after write: the written key reads as the value, every other as before. -/
@[simp] theorem Cells.get_set (dflt : Byte) (m : List Host.Cell) (k k' : Nat) (v : Byte) :
    Cells.get dflt (Cells.set dflt m k v) k' = if k' = k then v else Cells.get dflt m k' := by
  unfold Cells.set
  by_cases h : v = dflt <;> simp [h]

theorem Cells.wfFrom_insert {dflt v : Byte} {bound lo k : Nat} {m : List Host.Cell}
    (hm : Cells.wfFrom dflt bound lo m = true) (hlo : lo ≤ k) (hk : k < bound) (hv : v ≠ dflt) :
    Cells.wfFrom dflt bound lo (Cells.insert m k v) = true := by
  induction m generalizing lo with
  | nil => simp [Cells.insert, Cells.wfFrom, hlo, hk, hv]
  | cons p rest ih =>
    obtain ⟨k₀, v₀⟩ := p
    simp only [Cells.wfFrom, Bool.and_eq_true, decide_eq_true_eq] at hm
    obtain ⟨⟨⟨h₁, h₂⟩, h₃⟩, h₄⟩ := hm
    unfold Cells.insert
    split_ifs with hlt heq
    · simp only [Cells.wfFrom, Bool.and_eq_true, decide_eq_true_eq]
      exact ⟨⟨⟨hlo, hk⟩, hv⟩, ⟨⟨by omega, h₂⟩, h₃⟩, h₄⟩
    · subst heq
      simp only [Cells.wfFrom, Bool.and_eq_true, decide_eq_true_eq]
      exact ⟨⟨⟨hlo, hk⟩, hv⟩, h₄⟩
    · simp only [Cells.wfFrom, Bool.and_eq_true, decide_eq_true_eq]
      exact ⟨⟨⟨h₁, h₂⟩, h₃⟩, ih h₄ (by omega)⟩

theorem Cells.wfFrom_erase {dflt : Byte} {bound lo k : Nat} {m : List Host.Cell}
    (hm : Cells.wfFrom dflt bound lo m = true) : Cells.wfFrom dflt bound lo (Cells.erase m k) = true := by
  induction m generalizing lo with
  | nil => rfl
  | cons p rest ih =>
    obtain ⟨k₀, v₀⟩ := p
    simp only [Cells.wfFrom, Bool.and_eq_true, decide_eq_true_eq] at hm
    unfold Cells.erase
    split_ifs with heq
    · exact ih (Cells.wfFrom_mono (by omega) hm.2)
    · simp only [Cells.wfFrom, Bool.and_eq_true, decide_eq_true_eq]
      exact ⟨hm.1, ih hm.2⟩

/-- A write keeps the canonical form. -/
theorem Cells.wfFrom_set {dflt : Byte} {bound k : Nat} {m : List Host.Cell} (v : Byte)
    (hm : Cells.wfFrom dflt bound 0 m = true) (hk : k < bound) :
    Cells.wfFrom dflt bound 0 (Cells.set dflt m k v) = true := by
  unfold Cells.set
  split_ifs with hv
  · exact Cells.wfFrom_erase hm
  · exact Cells.wfFrom_insert hm (Nat.zero_le k) hk hv

/-- The form is canonical: two canonical arrays that read the same at every key are the same list. -/
theorem Cells.ext_of_wf {dflt : Byte} {bound : Nat} {lo : Nat} {m m' : List Host.Cell}
    (hm : Cells.wfFrom dflt bound lo m = true) (hm' : Cells.wfFrom dflt bound lo m' = true)
    (h : ∀ k, Cells.get dflt m k = Cells.get dflt m' k) : m = m' := by
  induction m generalizing lo m' with
  | nil =>
    cases m' with
    | nil => rfl
    | cons p' rest' =>
      obtain ⟨k', v'⟩ := p'
      simp only [Cells.wfFrom, Bool.and_eq_true, decide_eq_true_eq] at hm'
      exact absurd (by simpa [Cells.get] using (h k').symm) hm'.1.2
  | cons p rest ih =>
    obtain ⟨k, v⟩ := p
    cases m' with
    | nil =>
      simp only [Cells.wfFrom, Bool.and_eq_true, decide_eq_true_eq] at hm
      exact absurd (by simpa [Cells.get] using h k) hm.1.2
    | cons p' rest' =>
      obtain ⟨k', v'⟩ := p'
      simp only [Cells.wfFrom, Bool.and_eq_true, decide_eq_true_eq] at hm hm'
      rcases lt_trichotomy k k' with hlt | heq | hgt
      · have := h k
        rw [Cells.get, if_pos rfl, Cells.get, if_neg (by omega), Cells.get_of_lt hm'.2 (by omega)] at this
        exact absurd this hm.1.2
      · subst heq
        have hv := h k
        simp only [Cells.get, if_true] at hv
        subst hv
        congr 1
        refine ih hm.2 hm'.2 fun j => ?_
        have := h j
        simp only [Cells.get] at this
        split_ifs at this with hj
        · subst hj
          rw [Cells.get_of_lt hm.2 (Nat.lt_succ_self _), Cells.get_of_lt hm'.2 (Nat.lt_succ_self _)]
        · exact this
      · have := h k'
        rw [Cells.get, if_neg (by omega), Cells.get, if_pos rfl, Cells.get_of_lt hm.2 (by omega)] at this
        exact absurd this.symm hm'.1.2

/-- Equal memories are equal data. -/
theorem Memory.ext_of_wf {m m' : Memory} (hm : m.wf = true) (hm' : m'.wf = true)
    (h : ∀ k, Cells.get Config.memInit m k = Cells.get Config.memInit m' k) : m = m' :=
  Cells.ext_of_wf hm hm' h

/-- Equal latch arrays are equal data. -/
theorem PortLatches.ext_of_wf {p p' : PortLatches} (hp : PortLatches.wf p = true) (hp' : PortLatches.wf p' = true)
    (h : ∀ k, Cells.get Config.portInit p k = Cells.get Config.portInit p' k) : p = p' :=
  Cells.ext_of_wf hp hp' h

end Sys2Proof.Machine
end

