-- ==== Sys2Proof/Laws/State.lean ====
section
/-! SUPPORT. The fields of the state after each named update, one lemma per field, so that no later proof unfolds a record
update. -/

namespace Sys2Proof.Machine

/-! ### `State.poke` -/

@[simp] theorem State.poke_a (s : State) (addr : Word) (v : Byte) : (s.poke addr v).a = s.a := rfl
@[simp] theorem State.poke_b (s : State) (addr : Word) (v : Byte) : (s.poke addr v).b = s.b := rfl
@[simp] theorem State.poke_c (s : State) (addr : Word) (v : Byte) : (s.poke addr v).c = s.c := rfl
@[simp] theorem State.poke_d (s : State) (addr : Word) (v : Byte) : (s.poke addr v).d = s.d := rfl
@[simp] theorem State.poke_e (s : State) (addr : Word) (v : Byte) : (s.poke addr v).e = s.e := rfl
@[simp] theorem State.poke_h (s : State) (addr : Word) (v : Byte) : (s.poke addr v).h = s.h := rfl
@[simp] theorem State.poke_l (s : State) (addr : Word) (v : Byte) : (s.poke addr v).l = s.l := rfl
@[simp] theorem State.poke_sp (s : State) (addr : Word) (v : Byte) : (s.poke addr v).sp = s.sp := rfl
@[simp] theorem State.poke_pc (s : State) (addr : Word) (v : Byte) : (s.poke addr v).pc = s.pc := rfl
@[simp] theorem State.poke_flags (s : State) (addr : Word) (v : Byte) : (s.poke addr v).flags = s.flags := rfl
@[simp] theorem State.poke_run (s : State) (addr : Word) (v : Byte) : (s.poke addr v).run = s.run := rfl
@[simp] theorem State.poke_inte (s : State) (addr : Word) (v : Byte) : (s.poke addr v).inte = s.inte := rfl
@[simp] theorem State.poke_mem (s : State) (addr : Word) (v : Byte) : (s.poke addr v).mem = Cells.set Config.memInit s.mem addr.toNat v := rfl
@[simp] theorem State.poke_pin (s : State) (addr : Word) (v : Byte) : (s.poke addr v).pin = s.pin := rfl
@[simp] theorem State.poke_pout (s : State) (addr : Word) (v : Byte) : (s.poke addr v).pout = s.pout := rfl
@[simp] theorem State.poke_digits (s : State) (addr : Word) (v : Byte) : (s.poke addr v).digits = s.digits := rfl
@[simp] theorem State.poke_key (s : State) (addr : Word) (v : Byte) : (s.poke addr v).key = s.key := rfl
@[simp] theorem State.poke_intExt (s : State) (addr : Word) (v : Byte) : (s.poke addr v).intExt = s.intExt := rfl

/-! ### The Bus with the decided empty set of windows -/

/-- No window: an address is in ROM or in RAM (`20_memory.md` R41). -/
theorem regionOf_eq (addr : Word) :
    regionOf addr =
      if Config.romBase ≤ addr.toNat ∧ addr.toNat < Config.romBase + Config.romSize then .rom else .ram := rfl

theorem regionOf_rom_or_ram (addr : Word) : regionOf addr = .rom ∨ regionOf addr = .ram := by
  rw [regionOf_eq]
  split <;> simp

/-- No window: a read is `mem[a]` (`20_memory.md` R42). -/
theorem State.busRead_eq (s : State) (addr : Word) : s.busRead addr = Cells.get Config.memInit s.mem addr.toNat := rfl

/-- No window: a write stores in RAM and nowhere else (`20_memory.md` R43). -/
theorem State.busWrite_eq (s : State) (addr : Word) (v : Byte) :
    s.busWrite addr v = if regionOf addr = .ram then s.poke addr v else s := by
  have h : s.busWrite addr v =
      match regionOf addr with | .rom => s | .ram => s.poke addr v | .mmio w => s.mmioWrite w addr v := rfl
  rw [h]
  rcases regionOf_rom_or_ram addr with hr | hr <;> rw [hr] <;> simp

/-! ### `State.create` -/

/-- create on the machine of the decided parameters gives the reset state. -/
theorem State.create_intInput : State.create Config.intInput = State.reset := rfl

/-- Whether the input exists or not, memory and the latches after create list nothing. -/
@[simp] theorem State.create_mem (b : Bool) : (State.create b).mem = [] := rfl
@[simp] theorem State.create_pin (b : Bool) : (State.create b).pin = [] := rfl
@[simp] theorem State.create_pout (b : Bool) : (State.create b).pout = [] := rfl

/-- create keeps whether the machine has an interrupt input. -/
@[simp] theorem State.hasIntInput_create (b : Bool) : (State.create b).hasIntInput = b := by cases b <;> rfl

/-! ### `State.busWrite` -/

@[simp] theorem State.busWrite_a (s : State) (addr : Word) (v : Byte) : (s.busWrite addr v).a = s.a := by rw [State.busWrite_eq]; split <;> rfl
@[simp] theorem State.busWrite_b (s : State) (addr : Word) (v : Byte) : (s.busWrite addr v).b = s.b := by rw [State.busWrite_eq]; split <;> rfl
@[simp] theorem State.busWrite_c (s : State) (addr : Word) (v : Byte) : (s.busWrite addr v).c = s.c := by rw [State.busWrite_eq]; split <;> rfl
@[simp] theorem State.busWrite_d (s : State) (addr : Word) (v : Byte) : (s.busWrite addr v).d = s.d := by rw [State.busWrite_eq]; split <;> rfl
@[simp] theorem State.busWrite_e (s : State) (addr : Word) (v : Byte) : (s.busWrite addr v).e = s.e := by rw [State.busWrite_eq]; split <;> rfl
@[simp] theorem State.busWrite_h (s : State) (addr : Word) (v : Byte) : (s.busWrite addr v).h = s.h := by rw [State.busWrite_eq]; split <;> rfl
@[simp] theorem State.busWrite_l (s : State) (addr : Word) (v : Byte) : (s.busWrite addr v).l = s.l := by rw [State.busWrite_eq]; split <;> rfl
@[simp] theorem State.busWrite_sp (s : State) (addr : Word) (v : Byte) : (s.busWrite addr v).sp = s.sp := by rw [State.busWrite_eq]; split <;> rfl
@[simp] theorem State.busWrite_pc (s : State) (addr : Word) (v : Byte) : (s.busWrite addr v).pc = s.pc := by rw [State.busWrite_eq]; split <;> rfl
@[simp] theorem State.busWrite_flags (s : State) (addr : Word) (v : Byte) : (s.busWrite addr v).flags = s.flags := by rw [State.busWrite_eq]; split <;> rfl
@[simp] theorem State.busWrite_run (s : State) (addr : Word) (v : Byte) : (s.busWrite addr v).run = s.run := by rw [State.busWrite_eq]; split <;> rfl
@[simp] theorem State.busWrite_inte (s : State) (addr : Word) (v : Byte) : (s.busWrite addr v).inte = s.inte := by rw [State.busWrite_eq]; split <;> rfl
@[simp] theorem State.busWrite_pin (s : State) (addr : Word) (v : Byte) : (s.busWrite addr v).pin = s.pin := by rw [State.busWrite_eq]; split <;> rfl
@[simp] theorem State.busWrite_pout (s : State) (addr : Word) (v : Byte) : (s.busWrite addr v).pout = s.pout := by rw [State.busWrite_eq]; split <;> rfl
@[simp] theorem State.busWrite_digits (s : State) (addr : Word) (v : Byte) : (s.busWrite addr v).digits = s.digits := by rw [State.busWrite_eq]; split <;> rfl
@[simp] theorem State.busWrite_key (s : State) (addr : Word) (v : Byte) : (s.busWrite addr v).key = s.key := by rw [State.busWrite_eq]; split <;> rfl
@[simp] theorem State.busWrite_intExt (s : State) (addr : Word) (v : Byte) : (s.busWrite addr v).intExt = s.intExt := by rw [State.busWrite_eq]; split <;> rfl

/-! ### `State.memWrite16` -/

@[simp] theorem State.memWrite16_a (s : State) (addr v : Word) : (s.memWrite16 addr v).a = s.a := by simp [State.memWrite16]
@[simp] theorem State.memWrite16_b (s : State) (addr v : Word) : (s.memWrite16 addr v).b = s.b := by simp [State.memWrite16]
@[simp] theorem State.memWrite16_c (s : State) (addr v : Word) : (s.memWrite16 addr v).c = s.c := by simp [State.memWrite16]
@[simp] theorem State.memWrite16_d (s : State) (addr v : Word) : (s.memWrite16 addr v).d = s.d := by simp [State.memWrite16]
@[simp] theorem State.memWrite16_e (s : State) (addr v : Word) : (s.memWrite16 addr v).e = s.e := by simp [State.memWrite16]
@[simp] theorem State.memWrite16_h (s : State) (addr v : Word) : (s.memWrite16 addr v).h = s.h := by simp [State.memWrite16]
@[simp] theorem State.memWrite16_l (s : State) (addr v : Word) : (s.memWrite16 addr v).l = s.l := by simp [State.memWrite16]
@[simp] theorem State.memWrite16_sp (s : State) (addr v : Word) : (s.memWrite16 addr v).sp = s.sp := by simp [State.memWrite16]
@[simp] theorem State.memWrite16_pc (s : State) (addr v : Word) : (s.memWrite16 addr v).pc = s.pc := by simp [State.memWrite16]
@[simp] theorem State.memWrite16_flags (s : State) (addr v : Word) : (s.memWrite16 addr v).flags = s.flags := by simp [State.memWrite16]
@[simp] theorem State.memWrite16_run (s : State) (addr v : Word) : (s.memWrite16 addr v).run = s.run := by simp [State.memWrite16]
@[simp] theorem State.memWrite16_inte (s : State) (addr v : Word) : (s.memWrite16 addr v).inte = s.inte := by simp [State.memWrite16]
@[simp] theorem State.memWrite16_pin (s : State) (addr v : Word) : (s.memWrite16 addr v).pin = s.pin := by simp [State.memWrite16]
@[simp] theorem State.memWrite16_pout (s : State) (addr v : Word) : (s.memWrite16 addr v).pout = s.pout := by simp [State.memWrite16]
@[simp] theorem State.memWrite16_digits (s : State) (addr v : Word) : (s.memWrite16 addr v).digits = s.digits := by simp [State.memWrite16]
@[simp] theorem State.memWrite16_key (s : State) (addr v : Word) : (s.memWrite16 addr v).key = s.key := by simp [State.memWrite16]
@[simp] theorem State.memWrite16_intExt (s : State) (addr v : Word) : (s.memWrite16 addr v).intExt = s.intExt := by simp [State.memWrite16]

/-! ### `State.push16` -/

@[simp] theorem State.push16_a (s : State) (v : Word) : (s.push16 v).a = s.a := by simp [State.push16]
@[simp] theorem State.push16_b (s : State) (v : Word) : (s.push16 v).b = s.b := by simp [State.push16]
@[simp] theorem State.push16_c (s : State) (v : Word) : (s.push16 v).c = s.c := by simp [State.push16]
@[simp] theorem State.push16_d (s : State) (v : Word) : (s.push16 v).d = s.d := by simp [State.push16]
@[simp] theorem State.push16_e (s : State) (v : Word) : (s.push16 v).e = s.e := by simp [State.push16]
@[simp] theorem State.push16_h (s : State) (v : Word) : (s.push16 v).h = s.h := by simp [State.push16]
@[simp] theorem State.push16_l (s : State) (v : Word) : (s.push16 v).l = s.l := by simp [State.push16]
@[simp] theorem State.push16_sp (s : State) (v : Word) : (s.push16 v).sp = s.sp - 2 := rfl
@[simp] theorem State.push16_pc (s : State) (v : Word) : (s.push16 v).pc = s.pc := by simp [State.push16]
@[simp] theorem State.push16_flags (s : State) (v : Word) : (s.push16 v).flags = s.flags := by simp [State.push16]
@[simp] theorem State.push16_run (s : State) (v : Word) : (s.push16 v).run = s.run := by simp [State.push16]
@[simp] theorem State.push16_inte (s : State) (v : Word) : (s.push16 v).inte = s.inte := by simp [State.push16]
@[simp] theorem State.push16_pin (s : State) (v : Word) : (s.push16 v).pin = s.pin := by simp [State.push16]
@[simp] theorem State.push16_pout (s : State) (v : Word) : (s.push16 v).pout = s.pout := by simp [State.push16]
@[simp] theorem State.push16_digits (s : State) (v : Word) : (s.push16 v).digits = s.digits := by simp [State.push16]
@[simp] theorem State.push16_key (s : State) (v : Word) : (s.push16 v).key = s.key := by simp [State.push16]
@[simp] theorem State.push16_intExt (s : State) (v : Word) : (s.push16 v).intExt = s.intExt := by simp [State.push16]

/-! ### `State.writeDigit` -/

@[simp] theorem State.writeDigit_a (s : State) (i : Fin 6) (v : Byte) : (s.writeDigit i v).a = s.a := rfl
@[simp] theorem State.writeDigit_b (s : State) (i : Fin 6) (v : Byte) : (s.writeDigit i v).b = s.b := rfl
@[simp] theorem State.writeDigit_c (s : State) (i : Fin 6) (v : Byte) : (s.writeDigit i v).c = s.c := rfl
@[simp] theorem State.writeDigit_d (s : State) (i : Fin 6) (v : Byte) : (s.writeDigit i v).d = s.d := rfl
@[simp] theorem State.writeDigit_e (s : State) (i : Fin 6) (v : Byte) : (s.writeDigit i v).e = s.e := rfl
@[simp] theorem State.writeDigit_h (s : State) (i : Fin 6) (v : Byte) : (s.writeDigit i v).h = s.h := rfl
@[simp] theorem State.writeDigit_l (s : State) (i : Fin 6) (v : Byte) : (s.writeDigit i v).l = s.l := rfl
@[simp] theorem State.writeDigit_sp (s : State) (i : Fin 6) (v : Byte) : (s.writeDigit i v).sp = s.sp := rfl
@[simp] theorem State.writeDigit_pc (s : State) (i : Fin 6) (v : Byte) : (s.writeDigit i v).pc = s.pc := rfl
@[simp] theorem State.writeDigit_flags (s : State) (i : Fin 6) (v : Byte) : (s.writeDigit i v).flags = s.flags := rfl
@[simp] theorem State.writeDigit_run (s : State) (i : Fin 6) (v : Byte) : (s.writeDigit i v).run = s.run := rfl
@[simp] theorem State.writeDigit_inte (s : State) (i : Fin 6) (v : Byte) : (s.writeDigit i v).inte = s.inte := rfl
@[simp] theorem State.writeDigit_mem (s : State) (i : Fin 6) (v : Byte) : (s.writeDigit i v).mem = s.mem := rfl
@[simp] theorem State.writeDigit_pin (s : State) (i : Fin 6) (v : Byte) : (s.writeDigit i v).pin = s.pin := rfl
@[simp] theorem State.writeDigit_pout (s : State) (i : Fin 6) (v : Byte) : (s.writeDigit i v).pout = s.pout := rfl
@[simp] theorem State.writeDigit_digits (s : State) (i : Fin 6) (v : Byte) : (s.writeDigit i v).digits = s.digits.set i v := rfl
@[simp] theorem State.writeDigit_key (s : State) (i : Fin 6) (v : Byte) : (s.writeDigit i v).key = s.key := rfl
@[simp] theorem State.writeDigit_intExt (s : State) (i : Fin 6) (v : Byte) : (s.writeDigit i v).intExt = s.intExt := rfl

/-! ### `State.setInputLatch` -/

@[simp] theorem State.setInputLatch_a (s : State) (port v : Byte) : (s.setInputLatch port v).a = s.a := rfl
@[simp] theorem State.setInputLatch_b (s : State) (port v : Byte) : (s.setInputLatch port v).b = s.b := rfl
@[simp] theorem State.setInputLatch_c (s : State) (port v : Byte) : (s.setInputLatch port v).c = s.c := rfl
@[simp] theorem State.setInputLatch_d (s : State) (port v : Byte) : (s.setInputLatch port v).d = s.d := rfl
@[simp] theorem State.setInputLatch_e (s : State) (port v : Byte) : (s.setInputLatch port v).e = s.e := rfl
@[simp] theorem State.setInputLatch_h (s : State) (port v : Byte) : (s.setInputLatch port v).h = s.h := rfl
@[simp] theorem State.setInputLatch_l (s : State) (port v : Byte) : (s.setInputLatch port v).l = s.l := rfl
@[simp] theorem State.setInputLatch_sp (s : State) (port v : Byte) : (s.setInputLatch port v).sp = s.sp := rfl
@[simp] theorem State.setInputLatch_pc (s : State) (port v : Byte) : (s.setInputLatch port v).pc = s.pc := rfl
@[simp] theorem State.setInputLatch_flags (s : State) (port v : Byte) : (s.setInputLatch port v).flags = s.flags := rfl
@[simp] theorem State.setInputLatch_run (s : State) (port v : Byte) : (s.setInputLatch port v).run = s.run := rfl
@[simp] theorem State.setInputLatch_inte (s : State) (port v : Byte) : (s.setInputLatch port v).inte = s.inte := rfl
@[simp] theorem State.setInputLatch_mem (s : State) (port v : Byte) : (s.setInputLatch port v).mem = s.mem := rfl
@[simp] theorem State.setInputLatch_pin (s : State) (port v : Byte) : (s.setInputLatch port v).pin = Cells.set Config.portInit s.pin port.toNat v := by simp [State.setInputLatch, Config.portShared]
@[simp] theorem State.setInputLatch_pout (s : State) (port v : Byte) : (s.setInputLatch port v).pout = s.pout := by simp [State.setInputLatch, Config.portShared]
@[simp] theorem State.setInputLatch_digits (s : State) (port v : Byte) : (s.setInputLatch port v).digits = s.digits := rfl
@[simp] theorem State.setInputLatch_key (s : State) (port v : Byte) : (s.setInputLatch port v).key = s.key := rfl
@[simp] theorem State.setInputLatch_intExt (s : State) (port v : Byte) : (s.setInputLatch port v).intExt = s.intExt := rfl

/-! ### `State.setOutputLatch` -/

@[simp] theorem State.setOutputLatch_a (s : State) (port v : Byte) : (s.setOutputLatch port v).a = s.a := rfl
@[simp] theorem State.setOutputLatch_b (s : State) (port v : Byte) : (s.setOutputLatch port v).b = s.b := rfl
@[simp] theorem State.setOutputLatch_c (s : State) (port v : Byte) : (s.setOutputLatch port v).c = s.c := rfl
@[simp] theorem State.setOutputLatch_d (s : State) (port v : Byte) : (s.setOutputLatch port v).d = s.d := rfl
@[simp] theorem State.setOutputLatch_e (s : State) (port v : Byte) : (s.setOutputLatch port v).e = s.e := rfl
@[simp] theorem State.setOutputLatch_h (s : State) (port v : Byte) : (s.setOutputLatch port v).h = s.h := rfl
@[simp] theorem State.setOutputLatch_l (s : State) (port v : Byte) : (s.setOutputLatch port v).l = s.l := rfl
@[simp] theorem State.setOutputLatch_sp (s : State) (port v : Byte) : (s.setOutputLatch port v).sp = s.sp := rfl
@[simp] theorem State.setOutputLatch_pc (s : State) (port v : Byte) : (s.setOutputLatch port v).pc = s.pc := rfl
@[simp] theorem State.setOutputLatch_flags (s : State) (port v : Byte) : (s.setOutputLatch port v).flags = s.flags := rfl
@[simp] theorem State.setOutputLatch_run (s : State) (port v : Byte) : (s.setOutputLatch port v).run = s.run := rfl
@[simp] theorem State.setOutputLatch_inte (s : State) (port v : Byte) : (s.setOutputLatch port v).inte = s.inte := rfl
@[simp] theorem State.setOutputLatch_mem (s : State) (port v : Byte) : (s.setOutputLatch port v).mem = s.mem := rfl
@[simp] theorem State.setOutputLatch_pin (s : State) (port v : Byte) : (s.setOutputLatch port v).pin = s.pin := by simp [State.setOutputLatch, Config.portShared]
@[simp] theorem State.setOutputLatch_pout (s : State) (port v : Byte) : (s.setOutputLatch port v).pout = Cells.set Config.portInit s.pout port.toNat v := by simp [State.setOutputLatch, Config.portShared]
@[simp] theorem State.setOutputLatch_digits (s : State) (port v : Byte) : (s.setOutputLatch port v).digits = s.digits := rfl
@[simp] theorem State.setOutputLatch_key (s : State) (port v : Byte) : (s.setOutputLatch port v).key = s.key := rfl
@[simp] theorem State.setOutputLatch_intExt (s : State) (port v : Byte) : (s.setOutputLatch port v).intExt = s.intExt := rfl

/-! ### `State.clearEiShadow` -/

@[simp] theorem State.clearEiShadow_a (s : State) : (s.clearEiShadow).a = s.a := rfl
@[simp] theorem State.clearEiShadow_b (s : State) : (s.clearEiShadow).b = s.b := rfl
@[simp] theorem State.clearEiShadow_c (s : State) : (s.clearEiShadow).c = s.c := rfl
@[simp] theorem State.clearEiShadow_d (s : State) : (s.clearEiShadow).d = s.d := rfl
@[simp] theorem State.clearEiShadow_e (s : State) : (s.clearEiShadow).e = s.e := rfl
@[simp] theorem State.clearEiShadow_h (s : State) : (s.clearEiShadow).h = s.h := rfl
@[simp] theorem State.clearEiShadow_l (s : State) : (s.clearEiShadow).l = s.l := rfl
@[simp] theorem State.clearEiShadow_sp (s : State) : (s.clearEiShadow).sp = s.sp := rfl
@[simp] theorem State.clearEiShadow_pc (s : State) : (s.clearEiShadow).pc = s.pc := rfl
@[simp] theorem State.clearEiShadow_flags (s : State) : (s.clearEiShadow).flags = s.flags := rfl
@[simp] theorem State.clearEiShadow_run (s : State) : (s.clearEiShadow).run = s.run := rfl
@[simp] theorem State.clearEiShadow_inte (s : State) : (s.clearEiShadow).inte = s.inte := rfl
@[simp] theorem State.clearEiShadow_mem (s : State) : (s.clearEiShadow).mem = s.mem := rfl
@[simp] theorem State.clearEiShadow_pin (s : State) : (s.clearEiShadow).pin = s.pin := rfl
@[simp] theorem State.clearEiShadow_pout (s : State) : (s.clearEiShadow).pout = s.pout := rfl
@[simp] theorem State.clearEiShadow_digits (s : State) : (s.clearEiShadow).digits = s.digits := rfl
@[simp] theorem State.clearEiShadow_key (s : State) : (s.clearEiShadow).key = s.key := rfl
@[simp] theorem State.clearEiShadow_intExt (s : State) : (s.clearEiShadow).intExt = s.intExt.map fun x => { x with eiShadow := false } := rfl

/-! ### `State.setEiShadow` -/

@[simp] theorem State.setEiShadow_a (s : State) : (s.setEiShadow).a = s.a := rfl
@[simp] theorem State.setEiShadow_b (s : State) : (s.setEiShadow).b = s.b := rfl
@[simp] theorem State.setEiShadow_c (s : State) : (s.setEiShadow).c = s.c := rfl
@[simp] theorem State.setEiShadow_d (s : State) : (s.setEiShadow).d = s.d := rfl
@[simp] theorem State.setEiShadow_e (s : State) : (s.setEiShadow).e = s.e := rfl
@[simp] theorem State.setEiShadow_h (s : State) : (s.setEiShadow).h = s.h := rfl
@[simp] theorem State.setEiShadow_l (s : State) : (s.setEiShadow).l = s.l := rfl
@[simp] theorem State.setEiShadow_sp (s : State) : (s.setEiShadow).sp = s.sp := rfl
@[simp] theorem State.setEiShadow_pc (s : State) : (s.setEiShadow).pc = s.pc := rfl
@[simp] theorem State.setEiShadow_flags (s : State) : (s.setEiShadow).flags = s.flags := rfl
@[simp] theorem State.setEiShadow_run (s : State) : (s.setEiShadow).run = s.run := rfl
@[simp] theorem State.setEiShadow_inte (s : State) : (s.setEiShadow).inte = s.inte := rfl
@[simp] theorem State.setEiShadow_mem (s : State) : (s.setEiShadow).mem = s.mem := rfl
@[simp] theorem State.setEiShadow_pin (s : State) : (s.setEiShadow).pin = s.pin := rfl
@[simp] theorem State.setEiShadow_pout (s : State) : (s.setEiShadow).pout = s.pout := rfl
@[simp] theorem State.setEiShadow_digits (s : State) : (s.setEiShadow).digits = s.digits := rfl
@[simp] theorem State.setEiShadow_key (s : State) : (s.setEiShadow).key = s.key := rfl
@[simp] theorem State.setEiShadow_intExt (s : State) : (s.setEiShadow).intExt = s.intExt.map fun x => { x with eiShadow := true } := rfl

/-! ### `State.retire` -/

@[simp] theorem State.retire_a (s : State) (n : Word) : (s.retire n).a = s.a := rfl
@[simp] theorem State.retire_b (s : State) (n : Word) : (s.retire n).b = s.b := rfl
@[simp] theorem State.retire_c (s : State) (n : Word) : (s.retire n).c = s.c := rfl
@[simp] theorem State.retire_d (s : State) (n : Word) : (s.retire n).d = s.d := rfl
@[simp] theorem State.retire_e (s : State) (n : Word) : (s.retire n).e = s.e := rfl
@[simp] theorem State.retire_h (s : State) (n : Word) : (s.retire n).h = s.h := rfl
@[simp] theorem State.retire_l (s : State) (n : Word) : (s.retire n).l = s.l := rfl
@[simp] theorem State.retire_sp (s : State) (n : Word) : (s.retire n).sp = s.sp := rfl
@[simp] theorem State.retire_pc (s : State) (n : Word) : (s.retire n).pc = s.pc + n := rfl
@[simp] theorem State.retire_flags (s : State) (n : Word) : (s.retire n).flags = s.flags := rfl
@[simp] theorem State.retire_run (s : State) (n : Word) : (s.retire n).run = s.run := rfl
@[simp] theorem State.retire_inte (s : State) (n : Word) : (s.retire n).inte = s.inte := rfl
@[simp] theorem State.retire_mem (s : State) (n : Word) : (s.retire n).mem = s.mem := rfl
@[simp] theorem State.retire_pin (s : State) (n : Word) : (s.retire n).pin = s.pin := rfl
@[simp] theorem State.retire_pout (s : State) (n : Word) : (s.retire n).pout = s.pout := rfl
@[simp] theorem State.retire_digits (s : State) (n : Word) : (s.retire n).digits = s.digits := rfl
@[simp] theorem State.retire_key (s : State) (n : Word) : (s.retire n).key = s.key := rfl
@[simp] theorem State.retire_intExt (s : State) (n : Word) : (s.retire n).intExt = s.intExt.map fun x => { x with eiShadow := false } := rfl

/-! ### `State.jumpTo` -/

@[simp] theorem State.jumpTo_a (s : State) (target : Word) : (s.jumpTo target).a = s.a := rfl
@[simp] theorem State.jumpTo_b (s : State) (target : Word) : (s.jumpTo target).b = s.b := rfl
@[simp] theorem State.jumpTo_c (s : State) (target : Word) : (s.jumpTo target).c = s.c := rfl
@[simp] theorem State.jumpTo_d (s : State) (target : Word) : (s.jumpTo target).d = s.d := rfl
@[simp] theorem State.jumpTo_e (s : State) (target : Word) : (s.jumpTo target).e = s.e := rfl
@[simp] theorem State.jumpTo_h (s : State) (target : Word) : (s.jumpTo target).h = s.h := rfl
@[simp] theorem State.jumpTo_l (s : State) (target : Word) : (s.jumpTo target).l = s.l := rfl
@[simp] theorem State.jumpTo_sp (s : State) (target : Word) : (s.jumpTo target).sp = s.sp := rfl
@[simp] theorem State.jumpTo_pc (s : State) (target : Word) : (s.jumpTo target).pc = target := rfl
@[simp] theorem State.jumpTo_flags (s : State) (target : Word) : (s.jumpTo target).flags = s.flags := rfl
@[simp] theorem State.jumpTo_run (s : State) (target : Word) : (s.jumpTo target).run = s.run := rfl
@[simp] theorem State.jumpTo_inte (s : State) (target : Word) : (s.jumpTo target).inte = s.inte := rfl
@[simp] theorem State.jumpTo_mem (s : State) (target : Word) : (s.jumpTo target).mem = s.mem := rfl
@[simp] theorem State.jumpTo_pin (s : State) (target : Word) : (s.jumpTo target).pin = s.pin := rfl
@[simp] theorem State.jumpTo_pout (s : State) (target : Word) : (s.jumpTo target).pout = s.pout := rfl
@[simp] theorem State.jumpTo_digits (s : State) (target : Word) : (s.jumpTo target).digits = s.digits := rfl
@[simp] theorem State.jumpTo_key (s : State) (target : Word) : (s.jumpTo target).key = s.key := rfl
@[simp] theorem State.jumpTo_intExt (s : State) (target : Word) : (s.jumpTo target).intExt = s.intExt.map fun x => { x with eiShadow := false } := rfl

/-! ### `State.takeIllegalOpcode` -/

@[simp] theorem State.takeIllegalOpcode_a (s : State) : (s.takeIllegalOpcode).a = s.a := rfl
@[simp] theorem State.takeIllegalOpcode_b (s : State) : (s.takeIllegalOpcode).b = s.b := rfl
@[simp] theorem State.takeIllegalOpcode_c (s : State) : (s.takeIllegalOpcode).c = s.c := rfl
@[simp] theorem State.takeIllegalOpcode_d (s : State) : (s.takeIllegalOpcode).d = s.d := rfl
@[simp] theorem State.takeIllegalOpcode_e (s : State) : (s.takeIllegalOpcode).e = s.e := rfl
@[simp] theorem State.takeIllegalOpcode_h (s : State) : (s.takeIllegalOpcode).h = s.h := rfl
@[simp] theorem State.takeIllegalOpcode_l (s : State) : (s.takeIllegalOpcode).l = s.l := rfl
@[simp] theorem State.takeIllegalOpcode_sp (s : State) : (s.takeIllegalOpcode).sp = s.sp := rfl
@[simp] theorem State.takeIllegalOpcode_pc (s : State) : (s.takeIllegalOpcode).pc = s.pc := rfl
@[simp] theorem State.takeIllegalOpcode_flags (s : State) : (s.takeIllegalOpcode).flags = s.flags := rfl
@[simp] theorem State.takeIllegalOpcode_run (s : State) : (s.takeIllegalOpcode).run = .halted := rfl
@[simp] theorem State.takeIllegalOpcode_inte (s : State) : (s.takeIllegalOpcode).inte = s.inte := rfl
@[simp] theorem State.takeIllegalOpcode_mem (s : State) : (s.takeIllegalOpcode).mem = s.mem := rfl
@[simp] theorem State.takeIllegalOpcode_pin (s : State) : (s.takeIllegalOpcode).pin = s.pin := rfl
@[simp] theorem State.takeIllegalOpcode_pout (s : State) : (s.takeIllegalOpcode).pout = s.pout := rfl
@[simp] theorem State.takeIllegalOpcode_digits (s : State) : (s.takeIllegalOpcode).digits = s.digits := rfl
@[simp] theorem State.takeIllegalOpcode_key (s : State) : (s.takeIllegalOpcode).key = s.key := rfl
@[simp] theorem State.takeIllegalOpcode_intExt (s : State) : (s.takeIllegalOpcode).intExt = s.intExt := rfl

/-! ### `State.setReg` -/

@[simp] theorem State.setReg_sp (s : State) (r : Reg) (v : Byte) : (s.setReg r v).sp = s.sp := by cases r <;> rfl
@[simp] theorem State.setReg_pc (s : State) (r : Reg) (v : Byte) : (s.setReg r v).pc = s.pc := by cases r <;> rfl
@[simp] theorem State.setReg_flags (s : State) (r : Reg) (v : Byte) : (s.setReg r v).flags = s.flags := by cases r <;> rfl
@[simp] theorem State.setReg_run (s : State) (r : Reg) (v : Byte) : (s.setReg r v).run = s.run := by cases r <;> rfl
@[simp] theorem State.setReg_inte (s : State) (r : Reg) (v : Byte) : (s.setReg r v).inte = s.inte := by cases r <;> rfl
@[simp] theorem State.setReg_mem (s : State) (r : Reg) (v : Byte) : (s.setReg r v).mem = s.mem := by cases r <;> rfl
@[simp] theorem State.setReg_pin (s : State) (r : Reg) (v : Byte) : (s.setReg r v).pin = s.pin := by cases r <;> rfl
@[simp] theorem State.setReg_pout (s : State) (r : Reg) (v : Byte) : (s.setReg r v).pout = s.pout := by cases r <;> rfl
@[simp] theorem State.setReg_digits (s : State) (r : Reg) (v : Byte) : (s.setReg r v).digits = s.digits := by cases r <;> rfl
@[simp] theorem State.setReg_key (s : State) (r : Reg) (v : Byte) : (s.setReg r v).key = s.key := by cases r <;> rfl
@[simp] theorem State.setReg_intExt (s : State) (r : Reg) (v : Byte) : (s.setReg r v).intExt = s.intExt := by cases r <;> rfl

/-! ### `State.setBc` -/

@[simp] theorem State.setBc_a (s : State) (v : Word) : (s.setBc v).a = s.a := rfl
@[simp] theorem State.setBc_b (s : State) (v : Word) : (s.setBc v).b = highByte v := rfl
@[simp] theorem State.setBc_c (s : State) (v : Word) : (s.setBc v).c = lowByte v := rfl
@[simp] theorem State.setBc_d (s : State) (v : Word) : (s.setBc v).d = s.d := rfl
@[simp] theorem State.setBc_e (s : State) (v : Word) : (s.setBc v).e = s.e := rfl
@[simp] theorem State.setBc_h (s : State) (v : Word) : (s.setBc v).h = s.h := rfl
@[simp] theorem State.setBc_l (s : State) (v : Word) : (s.setBc v).l = s.l := rfl
@[simp] theorem State.setBc_sp (s : State) (v : Word) : (s.setBc v).sp = s.sp := rfl
@[simp] theorem State.setBc_pc (s : State) (v : Word) : (s.setBc v).pc = s.pc := rfl
@[simp] theorem State.setBc_flags (s : State) (v : Word) : (s.setBc v).flags = s.flags := rfl
@[simp] theorem State.setBc_run (s : State) (v : Word) : (s.setBc v).run = s.run := rfl
@[simp] theorem State.setBc_inte (s : State) (v : Word) : (s.setBc v).inte = s.inte := rfl
@[simp] theorem State.setBc_mem (s : State) (v : Word) : (s.setBc v).mem = s.mem := rfl
@[simp] theorem State.setBc_pin (s : State) (v : Word) : (s.setBc v).pin = s.pin := rfl
@[simp] theorem State.setBc_pout (s : State) (v : Word) : (s.setBc v).pout = s.pout := rfl
@[simp] theorem State.setBc_digits (s : State) (v : Word) : (s.setBc v).digits = s.digits := rfl
@[simp] theorem State.setBc_key (s : State) (v : Word) : (s.setBc v).key = s.key := rfl
@[simp] theorem State.setBc_intExt (s : State) (v : Word) : (s.setBc v).intExt = s.intExt := rfl

/-! ### `State.setDe` -/

@[simp] theorem State.setDe_a (s : State) (v : Word) : (s.setDe v).a = s.a := rfl
@[simp] theorem State.setDe_b (s : State) (v : Word) : (s.setDe v).b = s.b := rfl
@[simp] theorem State.setDe_c (s : State) (v : Word) : (s.setDe v).c = s.c := rfl
@[simp] theorem State.setDe_d (s : State) (v : Word) : (s.setDe v).d = highByte v := rfl
@[simp] theorem State.setDe_e (s : State) (v : Word) : (s.setDe v).e = lowByte v := rfl
@[simp] theorem State.setDe_h (s : State) (v : Word) : (s.setDe v).h = s.h := rfl
@[simp] theorem State.setDe_l (s : State) (v : Word) : (s.setDe v).l = s.l := rfl
@[simp] theorem State.setDe_sp (s : State) (v : Word) : (s.setDe v).sp = s.sp := rfl
@[simp] theorem State.setDe_pc (s : State) (v : Word) : (s.setDe v).pc = s.pc := rfl
@[simp] theorem State.setDe_flags (s : State) (v : Word) : (s.setDe v).flags = s.flags := rfl
@[simp] theorem State.setDe_run (s : State) (v : Word) : (s.setDe v).run = s.run := rfl
@[simp] theorem State.setDe_inte (s : State) (v : Word) : (s.setDe v).inte = s.inte := rfl
@[simp] theorem State.setDe_mem (s : State) (v : Word) : (s.setDe v).mem = s.mem := rfl
@[simp] theorem State.setDe_pin (s : State) (v : Word) : (s.setDe v).pin = s.pin := rfl
@[simp] theorem State.setDe_pout (s : State) (v : Word) : (s.setDe v).pout = s.pout := rfl
@[simp] theorem State.setDe_digits (s : State) (v : Word) : (s.setDe v).digits = s.digits := rfl
@[simp] theorem State.setDe_key (s : State) (v : Word) : (s.setDe v).key = s.key := rfl
@[simp] theorem State.setDe_intExt (s : State) (v : Word) : (s.setDe v).intExt = s.intExt := rfl

/-! ### `State.setHl` -/

@[simp] theorem State.setHl_a (s : State) (v : Word) : (s.setHl v).a = s.a := rfl
@[simp] theorem State.setHl_b (s : State) (v : Word) : (s.setHl v).b = s.b := rfl
@[simp] theorem State.setHl_c (s : State) (v : Word) : (s.setHl v).c = s.c := rfl
@[simp] theorem State.setHl_d (s : State) (v : Word) : (s.setHl v).d = s.d := rfl
@[simp] theorem State.setHl_e (s : State) (v : Word) : (s.setHl v).e = s.e := rfl
@[simp] theorem State.setHl_h (s : State) (v : Word) : (s.setHl v).h = highByte v := rfl
@[simp] theorem State.setHl_l (s : State) (v : Word) : (s.setHl v).l = lowByte v := rfl
@[simp] theorem State.setHl_sp (s : State) (v : Word) : (s.setHl v).sp = s.sp := rfl
@[simp] theorem State.setHl_pc (s : State) (v : Word) : (s.setHl v).pc = s.pc := rfl
@[simp] theorem State.setHl_flags (s : State) (v : Word) : (s.setHl v).flags = s.flags := rfl
@[simp] theorem State.setHl_run (s : State) (v : Word) : (s.setHl v).run = s.run := rfl
@[simp] theorem State.setHl_inte (s : State) (v : Word) : (s.setHl v).inte = s.inte := rfl
@[simp] theorem State.setHl_mem (s : State) (v : Word) : (s.setHl v).mem = s.mem := rfl
@[simp] theorem State.setHl_pin (s : State) (v : Word) : (s.setHl v).pin = s.pin := rfl
@[simp] theorem State.setHl_pout (s : State) (v : Word) : (s.setHl v).pout = s.pout := rfl
@[simp] theorem State.setHl_digits (s : State) (v : Word) : (s.setHl v).digits = s.digits := rfl
@[simp] theorem State.setHl_key (s : State) (v : Word) : (s.setHl v).key = s.key := rfl
@[simp] theorem State.setHl_intExt (s : State) (v : Word) : (s.setHl v).intExt = s.intExt := rfl

/-! ### `State.setPsw` -/

@[simp] theorem State.setPsw_a (s : State) (v : Word) : (s.setPsw v).a = highByte v := rfl
@[simp] theorem State.setPsw_b (s : State) (v : Word) : (s.setPsw v).b = s.b := rfl
@[simp] theorem State.setPsw_c (s : State) (v : Word) : (s.setPsw v).c = s.c := rfl
@[simp] theorem State.setPsw_d (s : State) (v : Word) : (s.setPsw v).d = s.d := rfl
@[simp] theorem State.setPsw_e (s : State) (v : Word) : (s.setPsw v).e = s.e := rfl
@[simp] theorem State.setPsw_h (s : State) (v : Word) : (s.setPsw v).h = s.h := rfl
@[simp] theorem State.setPsw_l (s : State) (v : Word) : (s.setPsw v).l = s.l := rfl
@[simp] theorem State.setPsw_sp (s : State) (v : Word) : (s.setPsw v).sp = s.sp := rfl
@[simp] theorem State.setPsw_pc (s : State) (v : Word) : (s.setPsw v).pc = s.pc := rfl
@[simp] theorem State.setPsw_flags (s : State) (v : Word) : (s.setPsw v).flags = Flags.ofByte (lowByte v) := rfl
@[simp] theorem State.setPsw_run (s : State) (v : Word) : (s.setPsw v).run = s.run := rfl
@[simp] theorem State.setPsw_inte (s : State) (v : Word) : (s.setPsw v).inte = s.inte := rfl
@[simp] theorem State.setPsw_mem (s : State) (v : Word) : (s.setPsw v).mem = s.mem := rfl
@[simp] theorem State.setPsw_pin (s : State) (v : Word) : (s.setPsw v).pin = s.pin := rfl
@[simp] theorem State.setPsw_pout (s : State) (v : Word) : (s.setPsw v).pout = s.pout := rfl
@[simp] theorem State.setPsw_digits (s : State) (v : Word) : (s.setPsw v).digits = s.digits := rfl
@[simp] theorem State.setPsw_key (s : State) (v : Word) : (s.setPsw v).key = s.key := rfl
@[simp] theorem State.setPsw_intExt (s : State) (v : Word) : (s.setPsw v).intExt = s.intExt := rfl

/-! ### `State.setPair` -/

@[simp] theorem State.setPair_a (s : State) (rp : RegPair) (v : Word) : (s.setPair rp v).a = s.a := by cases rp <;> rfl
@[simp] theorem State.setPair_pc (s : State) (rp : RegPair) (v : Word) : (s.setPair rp v).pc = s.pc := by cases rp <;> rfl
@[simp] theorem State.setPair_flags (s : State) (rp : RegPair) (v : Word) : (s.setPair rp v).flags = s.flags := by cases rp <;> rfl
@[simp] theorem State.setPair_run (s : State) (rp : RegPair) (v : Word) : (s.setPair rp v).run = s.run := by cases rp <;> rfl
@[simp] theorem State.setPair_inte (s : State) (rp : RegPair) (v : Word) : (s.setPair rp v).inte = s.inte := by cases rp <;> rfl
@[simp] theorem State.setPair_mem (s : State) (rp : RegPair) (v : Word) : (s.setPair rp v).mem = s.mem := by cases rp <;> rfl
@[simp] theorem State.setPair_pin (s : State) (rp : RegPair) (v : Word) : (s.setPair rp v).pin = s.pin := by cases rp <;> rfl
@[simp] theorem State.setPair_pout (s : State) (rp : RegPair) (v : Word) : (s.setPair rp v).pout = s.pout := by cases rp <;> rfl
@[simp] theorem State.setPair_digits (s : State) (rp : RegPair) (v : Word) : (s.setPair rp v).digits = s.digits := by cases rp <;> rfl
@[simp] theorem State.setPair_key (s : State) (rp : RegPair) (v : Word) : (s.setPair rp v).key = s.key := by cases rp <;> rfl
@[simp] theorem State.setPair_intExt (s : State) (rp : RegPair) (v : Word) : (s.setPair rp v).intExt = s.intExt := by cases rp <;> rfl

/-! ### `State.setStackPair` -/

@[simp] theorem State.setStackPair_sp (s : State) (rp : StackPair) (v : Word) : (s.setStackPair rp v).sp = s.sp := by cases rp <;> rfl
@[simp] theorem State.setStackPair_pc (s : State) (rp : StackPair) (v : Word) : (s.setStackPair rp v).pc = s.pc := by cases rp <;> rfl
@[simp] theorem State.setStackPair_run (s : State) (rp : StackPair) (v : Word) : (s.setStackPair rp v).run = s.run := by cases rp <;> rfl
@[simp] theorem State.setStackPair_inte (s : State) (rp : StackPair) (v : Word) : (s.setStackPair rp v).inte = s.inte := by cases rp <;> rfl
@[simp] theorem State.setStackPair_mem (s : State) (rp : StackPair) (v : Word) : (s.setStackPair rp v).mem = s.mem := by cases rp <;> rfl
@[simp] theorem State.setStackPair_pin (s : State) (rp : StackPair) (v : Word) : (s.setStackPair rp v).pin = s.pin := by cases rp <;> rfl
@[simp] theorem State.setStackPair_pout (s : State) (rp : StackPair) (v : Word) : (s.setStackPair rp v).pout = s.pout := by cases rp <;> rfl
@[simp] theorem State.setStackPair_digits (s : State) (rp : StackPair) (v : Word) : (s.setStackPair rp v).digits = s.digits := by cases rp <;> rfl
@[simp] theorem State.setStackPair_key (s : State) (rp : StackPair) (v : Word) : (s.setStackPair rp v).key = s.key := by cases rp <;> rfl
@[simp] theorem State.setStackPair_intExt (s : State) (rp : StackPair) (v : Word) : (s.setStackPair rp v).intExt = s.intExt := by cases rp <;> rfl

/-! ### `State.setAccFlags` -/

@[simp] theorem State.setAccFlags_a (s : State) (r : Byte × Flags) : (s.setAccFlags r).a = r.1 := rfl
@[simp] theorem State.setAccFlags_b (s : State) (r : Byte × Flags) : (s.setAccFlags r).b = s.b := rfl
@[simp] theorem State.setAccFlags_c (s : State) (r : Byte × Flags) : (s.setAccFlags r).c = s.c := rfl
@[simp] theorem State.setAccFlags_d (s : State) (r : Byte × Flags) : (s.setAccFlags r).d = s.d := rfl
@[simp] theorem State.setAccFlags_e (s : State) (r : Byte × Flags) : (s.setAccFlags r).e = s.e := rfl
@[simp] theorem State.setAccFlags_h (s : State) (r : Byte × Flags) : (s.setAccFlags r).h = s.h := rfl
@[simp] theorem State.setAccFlags_l (s : State) (r : Byte × Flags) : (s.setAccFlags r).l = s.l := rfl
@[simp] theorem State.setAccFlags_sp (s : State) (r : Byte × Flags) : (s.setAccFlags r).sp = s.sp := rfl
@[simp] theorem State.setAccFlags_pc (s : State) (r : Byte × Flags) : (s.setAccFlags r).pc = s.pc := rfl
@[simp] theorem State.setAccFlags_flags (s : State) (r : Byte × Flags) : (s.setAccFlags r).flags = r.2 := rfl
@[simp] theorem State.setAccFlags_run (s : State) (r : Byte × Flags) : (s.setAccFlags r).run = s.run := rfl
@[simp] theorem State.setAccFlags_inte (s : State) (r : Byte × Flags) : (s.setAccFlags r).inte = s.inte := rfl
@[simp] theorem State.setAccFlags_mem (s : State) (r : Byte × Flags) : (s.setAccFlags r).mem = s.mem := rfl
@[simp] theorem State.setAccFlags_pin (s : State) (r : Byte × Flags) : (s.setAccFlags r).pin = s.pin := rfl
@[simp] theorem State.setAccFlags_pout (s : State) (r : Byte × Flags) : (s.setAccFlags r).pout = s.pout := rfl
@[simp] theorem State.setAccFlags_digits (s : State) (r : Byte × Flags) : (s.setAccFlags r).digits = s.digits := rfl
@[simp] theorem State.setAccFlags_key (s : State) (r : Byte × Flags) : (s.setAccFlags r).key = s.key := rfl
@[simp] theorem State.setAccFlags_intExt (s : State) (r : Byte × Flags) : (s.setAccFlags r).intExt = s.intExt := rfl

/-! ### `State.write8` -/

@[simp] theorem State.write8_sp (s : State) (dst : Operand8) (v : Byte) : (s.write8 dst v).sp = s.sp := by cases dst <;> simp [State.write8]
@[simp] theorem State.write8_pc (s : State) (dst : Operand8) (v : Byte) : (s.write8 dst v).pc = s.pc := by cases dst <;> simp [State.write8]
@[simp] theorem State.write8_flags (s : State) (dst : Operand8) (v : Byte) : (s.write8 dst v).flags = s.flags := by cases dst <;> simp [State.write8]
@[simp] theorem State.write8_run (s : State) (dst : Operand8) (v : Byte) : (s.write8 dst v).run = s.run := by cases dst <;> simp [State.write8]
@[simp] theorem State.write8_inte (s : State) (dst : Operand8) (v : Byte) : (s.write8 dst v).inte = s.inte := by cases dst <;> simp [State.write8]
@[simp] theorem State.write8_pin (s : State) (dst : Operand8) (v : Byte) : (s.write8 dst v).pin = s.pin := by cases dst <;> simp [State.write8]
@[simp] theorem State.write8_pout (s : State) (dst : Operand8) (v : Byte) : (s.write8 dst v).pout = s.pout := by cases dst <;> simp [State.write8]
@[simp] theorem State.write8_digits (s : State) (dst : Operand8) (v : Byte) : (s.write8 dst v).digits = s.digits := by cases dst <;> simp [State.write8]
@[simp] theorem State.write8_key (s : State) (dst : Operand8) (v : Byte) : (s.write8 dst v).key = s.key := by cases dst <;> simp [State.write8]
@[simp] theorem State.write8_intExt (s : State) (dst : Operand8) (v : Byte) : (s.write8 dst v).intExt = s.intExt := by cases dst <;> simp [State.write8]

/-! ### `State.write8Flags` -/

@[simp] theorem State.write8Flags_mem (s : State) (dst : Operand8) (r : Byte × Flags) : (s.write8Flags dst r).mem = (s.write8 dst r.1).mem := rfl
@[simp] theorem State.write8Flags_sp (s : State) (dst : Operand8) (r : Byte × Flags) : (s.write8Flags dst r).sp = s.sp := by simp [State.write8Flags]
@[simp] theorem State.write8Flags_pc (s : State) (dst : Operand8) (r : Byte × Flags) : (s.write8Flags dst r).pc = s.pc := by simp [State.write8Flags]
@[simp] theorem State.write8Flags_flags (s : State) (dst : Operand8) (r : Byte × Flags) : (s.write8Flags dst r).flags = r.2 := rfl
@[simp] theorem State.write8Flags_run (s : State) (dst : Operand8) (r : Byte × Flags) : (s.write8Flags dst r).run = s.run := by simp [State.write8Flags]
@[simp] theorem State.write8Flags_inte (s : State) (dst : Operand8) (r : Byte × Flags) : (s.write8Flags dst r).inte = s.inte := by simp [State.write8Flags]
@[simp] theorem State.write8Flags_pin (s : State) (dst : Operand8) (r : Byte × Flags) : (s.write8Flags dst r).pin = s.pin := by simp [State.write8Flags]
@[simp] theorem State.write8Flags_pout (s : State) (dst : Operand8) (r : Byte × Flags) : (s.write8Flags dst r).pout = s.pout := by simp [State.write8Flags]
@[simp] theorem State.write8Flags_digits (s : State) (dst : Operand8) (r : Byte × Flags) : (s.write8Flags dst r).digits = s.digits := by simp [State.write8Flags]
@[simp] theorem State.write8Flags_key (s : State) (dst : Operand8) (r : Byte × Flags) : (s.write8Flags dst r).key = s.key := by simp [State.write8Flags]
@[simp] theorem State.write8Flags_intExt (s : State) (dst : Operand8) (r : Byte × Flags) : (s.write8Flags dst r).intExt = s.intExt := by simp [State.write8Flags]

end Sys2Proof.Machine
end

