-- ==== Sys2Proof/Laws/Bus.lean ====
section
/-! SUPPORT. The laws of the Bus, the stack and the operands: what a read gives after each shared operation. -/

namespace Sys2Proof.Machine

/-! ### Words and bytes -/

theorem toNat_wordOf (h l : Byte) : (wordOf h l).toNat = 256 * h.toNat + l.toNat := by
  have := l.isLt
  unfold wordOf
  rw [BitVec.toNat_append, ← Nat.shiftLeft_add_eq_or_of_lt this, Nat.shiftLeft_eq]
  omega

theorem toNat_highByte (w : Word) : (highByte w).toNat = w.toNat / 256 := by
  have := w.isLt
  simp [highByte, Nat.shiftRight_eq_div_pow]
  omega

theorem toNat_lowByte (w : Word) : (lowByte w).toNat = w.toNat % 256 := by
  simp [lowByte]

@[simp] theorem highByte_wordOf (h l : Byte) : highByte (wordOf h l) = h := by
  have := l.isLt
  apply BitVec.eq_of_toNat_eq
  rw [toNat_highByte, toNat_wordOf]
  omega

@[simp] theorem lowByte_wordOf (h l : Byte) : lowByte (wordOf h l) = l := by
  have := l.isLt
  apply BitVec.eq_of_toNat_eq
  rw [toNat_lowByte, toNat_wordOf]
  omega

@[simp] theorem wordOf_highByte_lowByte (w : Word) : wordOf (highByte w) (lowByte w) = w := by
  apply BitVec.eq_of_toNat_eq
  rw [toNat_wordOf, toNat_highByte, toNat_lowByte]
  omega

theorem highByte_eq (w : Word) : highByte w = BitVec.ofNat 8 (w.toNat / 256) := by
  apply BitVec.eq_of_toNat_eq
  simp [highByte, Nat.shiftRight_eq_div_pow]

theorem lowByte_eq (w : Word) : lowByte w = BitVec.ofNat 8 w.toNat := by
  apply BitVec.eq_of_toNat_eq
  simp [lowByte]

/-! ### Regions -/

/-- The map of the decided parameters: ROM is 0x0000..0x07FF (D5). -/
theorem regionOf_eq_rom_iff (addr : Word) : regionOf addr = .rom ↔ addr.toNat < 0x0800 := by
  rw [regionOf_eq]
  unfold Config.romBase Config.romSize
  split_ifs with h <;> simp <;> omega

theorem regionOf_eq_ram_iff (addr : Word) : regionOf addr = .ram ↔ 0x0800 ≤ addr.toNat := by
  rw [regionOf_eq]
  unfold Config.romBase Config.romSize
  split_ifs with h <;> simp <;> omega

/-! ### Memory-mapped windows, for every choice of `MMIO_WINDOWS` (`20_memory.md` R44) -/

/-- A read in a keyboard window gives what the scanner answers. -/
theorem State.busReadIn_keyboard {windows : List Config.MmioWindow} {w : Config.MmioWindow} {addr : Word} (s : State)
    (h : windowIn windows addr = some w) (hw : w.device = .keyboard) : s.busReadIn windows addr = s.scanPort := by
  simp [State.busReadIn, h, State.mmioRead, hw]

/-- A write in a display window writes a digit. -/
theorem State.busWriteIn_display {windows : List Config.MmioWindow} {w : Config.MmioWindow} {addr : Word} (s : State)
    (v : Byte) (h : windowIn windows addr = some w) (hw : w.device = .display) :
    s.busWriteIn windows addr v = s.writeDigit (Config.displayWindowDigit (addr.toNat - w.base)) v := by
  simp [State.busWriteIn, regionIn, h, State.mmioWrite, hw]

/-- A write in a window stores no memory byte. -/
theorem State.busWriteIn_window_mem {windows : List Config.MmioWindow} {w : Config.MmioWindow} {addr : Word} (s : State)
    (v : Byte) (h : windowIn windows addr = some w) : (s.busWriteIn windows addr v).mem = s.mem := by
  simp only [State.busWriteIn, regionIn, h, State.mmioWrite]
  cases w.device <;> rfl

/-! ### Reads after the operations -/

/-- A read depends on memory alone. -/
theorem State.busRead_congr {s t : State} (h : t.mem = s.mem) (addr : Word) : t.busRead addr = s.busRead addr := by
  simp [State.busRead_eq, h]

@[simp] theorem State.busRead_poke (s : State) (addr addr' : Word) (v : Byte) :
    (s.poke addr v).busRead addr' = if addr' = addr then v else s.busRead addr' := by
  simp [State.busRead_eq, BitVec.toNat_inj]

/-- Everything a bus write does to reads: a RAM address reads as the byte, every other address as before. -/
theorem State.busRead_busWrite (s : State) (addr addr' : Word) (v : Byte) :
    (s.busWrite addr v).busRead addr' =
      if addr' = addr ∧ regionOf addr = .ram then v else s.busRead addr' := by
  rw [State.busWrite_eq]
  rcases regionOf_rom_or_ram addr with h | h <;> simp [h]

theorem State.busWrite_rom {s : State} {addr : Word} {v : Byte} (h : regionOf addr = .rom) :
    s.busWrite addr v = s := by
  simp [State.busWrite_eq, h]

theorem State.busWrite_ram {s : State} {addr : Word} {v : Byte} (h : regionOf addr = .ram) :
    s.busWrite addr v = s.poke addr v := by
  simp [State.busWrite_eq, h]

@[simp] theorem State.busRead_retire (s : State) (n addr : Word) : (s.retire n).busRead addr = s.busRead addr := rfl
@[simp] theorem State.busRead_jumpTo (s : State) (t addr : Word) : (s.jumpTo t).busRead addr = s.busRead addr := rfl
@[simp] theorem State.busRead_setReg (s : State) (r : Reg) (v : Byte) (addr : Word) :
    (s.setReg r v).busRead addr = s.busRead addr := State.busRead_congr (by simp) addr
@[simp] theorem State.busRead_setPair (s : State) (rp : RegPair) (v addr : Word) :
    (s.setPair rp v).busRead addr = s.busRead addr := State.busRead_congr (by simp) addr
@[simp] theorem State.busRead_setStackPair (s : State) (rp : StackPair) (v addr : Word) :
    (s.setStackPair rp v).busRead addr = s.busRead addr := State.busRead_congr (by simp) addr
@[simp] theorem State.busRead_setAccFlags (s : State) (r : Byte × Flags) (addr : Word) :
    (s.setAccFlags r).busRead addr = s.busRead addr := rfl
@[simp] theorem State.busRead_setHl (s : State) (v addr : Word) : (s.setHl v).busRead addr = s.busRead addr := rfl

@[simp] theorem State.busRead_setEiShadow (s : State) (addr : Word) : s.setEiShadow.busRead addr = s.busRead addr := rfl
@[simp] theorem State.busRead_takeIllegalOpcode (s : State) (addr : Word) :
    s.takeIllegalOpcode.busRead addr = s.busRead addr := rfl
@[simp] theorem State.busRead_write8Flags (s : State) (dst : Operand8) (r : Byte × Flags) (addr : Word) :
    (s.write8Flags dst r).busRead addr = (s.write8 dst r.1).busRead addr := State.busRead_congr rfl addr
@[simp] theorem State.busRead_acceptInterrupt (s : State) (n : Fin 8) (addr : Word) :
    (s.acceptInterrupt n).busRead addr = (s.push16 s.pc).busRead addr := State.busRead_congr rfl addr

/-- Two bytes stored one after the other. -/
theorem State.memAfter_busWrite_busWrite (s : State) (a₁ a₂ : Word) (v₁ v₂ : Byte) :
    MemAfter [(a₂, v₂), (a₁, v₁)] s ((s.busWrite a₁ v₁).busWrite a₂ v₂) := by
  intro addr
  simp only [State.busRead_busWrite, List.lookup_cons, List.lookup_nil]
  by_cases h₂ : addr = a₂
  · subst h₂
    by_cases hr : regionOf addr = .ram
    · simp [hr]
    · by_cases h₁ : addr = a₁
      · subst h₁; simp [hr]
      · simp [hr, h₁]
  · by_cases h₁ : addr = a₁
    · subst h₁
      simp [h₂, beq_eq_false_iff_ne.mpr h₂]
    · simp [h₁, h₂, beq_eq_false_iff_ne.mpr h₁, beq_eq_false_iff_ne.mpr h₂]

theorem State.memAfter_busWrite (s : State) (a : Word) (v : Byte) : MemAfter [(a, v)] s (s.busWrite a v) := by
  intro addr
  simp only [State.busRead_busWrite, List.lookup_cons, List.lookup_nil]
  by_cases h : addr = a
  · subst h; simp
  · simp [h, beq_eq_false_iff_ne.mpr h]

/-- Reading after `push16`, when both stack bytes are in RAM. -/
theorem State.memAfter_push16 (s : State) (v : Word) :
    MemAfter [(s.sp - 2, lowByte v), (s.sp - 1, highByte v)] s (s.push16 v) :=
  fun addr => State.memAfter_busWrite_busWrite s (s.sp - 1) (s.sp - 2) (highByte v) (lowByte v) addr

/-- The pushed word is the popped word when both stack bytes are in RAM. -/
theorem State.memRead16_push16 {s : State} (v : Word) (h₁ : regionOf (s.sp - 1) = .ram)
    (h₂ : regionOf (s.sp - 2) = .ram) : (s.push16 v).memRead16 (s.sp - 2) = v := by
  have e : s.sp - 2 + 1 = s.sp - 1 := by ring
  have hne : s.sp - 1 ≠ s.sp - 2 := by bv_omega
  have hm := State.memAfter_push16 s v
  have hlook : (s.sp - 1 == s.sp - 2) = false := beq_eq_false_iff_ne.mpr hne
  rw [State.memRead16, e, hm (s.sp - 1), hm (s.sp - 2), if_pos h₁, if_pos h₂]
  rw [List.lookup_cons, hlook, List.lookup_cons, List.lookup_cons, beq_self_eq_true, beq_self_eq_true]
  exact wordOf_highByte_lowByte v

/-! ### ROM is never written, the canonical form is kept -/

theorem State.busRead_busWrite_rom {s : State} {addr addr' : Word} {v : Byte} (h : regionOf addr' = .rom) :
    (s.busWrite addr v).busRead addr' = s.busRead addr' := by
  rw [State.busRead_busWrite, if_neg]
  rintro ⟨rfl, hr⟩
  simp [h] at hr

theorem State.busRead_push16_rom {s : State} {addr : Word} (v : Word) (h : regionOf addr = .rom) :
    (s.push16 v).busRead addr = s.busRead addr := by
  rw [State.memAfter_push16 s v addr, if_neg (by simp [h])]

theorem State.busRead_write8_rom {s : State} {addr : Word} (dst : Operand8) (v : Byte) (h : regionOf addr = .rom) :
    (s.write8 dst v).busRead addr = s.busRead addr := by
  cases dst with
  | reg r => exact State.busRead_setReg s r v addr
  | m => exact State.busRead_busWrite_rom h

theorem Memory.wf_poke {s : State} (addr : Word) (v : Byte) (h : s.mem.wf = true) :
    (s.poke addr v).mem.wf = true :=
  Cells.wfFrom_set v h addr.isLt

theorem Memory.wf_busWrite {s : State} (addr : Word) (v : Byte) (h : s.mem.wf = true) :
    (s.busWrite addr v).mem.wf = true := by
  rcases regionOf_rom_or_ram addr with hr | hr
  · rwa [State.busWrite_rom hr]
  · rw [State.busWrite_ram hr]; exact Memory.wf_poke addr v h

theorem Memory.wf_write8 {s : State} (dst : Operand8) (v : Byte) (h : s.mem.wf = true) :
    (s.write8 dst v).mem.wf = true := by
  cases dst with
  | reg r => simpa [State.write8] using h
  | m => exact Memory.wf_busWrite _ _ h

theorem Memory.wf_memWrite16 {s : State} (addr v : Word) (h : s.mem.wf = true) :
    (s.memWrite16 addr v).mem.wf = true :=
  Memory.wf_busWrite _ _ (Memory.wf_busWrite _ _ h)

theorem Memory.wf_push16 {s : State} (v : Word) (h : s.mem.wf = true) : (s.push16 v).mem.wf = true :=
  Memory.wf_busWrite _ _ (Memory.wf_busWrite _ _ h)

theorem Memory.wf_pokeAll {s : State} (addr : Nat) (img : List Byte) (h : s.mem.wf = true) :
    (s.pokeAll addr img).mem.wf = true := by
  induction img generalizing s addr with
  | nil => exact h
  | cons v rest ih => exact ih _ (Memory.wf_poke _ v h)

theorem Memory.wf_placeForFetch {s : State} (w : Nat) (h : s.mem.wf = true) :
    (s.placeForFetch w).mem.wf = true :=
  Memory.wf_poke _ _ (Memory.wf_poke _ _ (Memory.wf_poke _ _ h))

/-! ### Registers -/

@[simp] theorem State.getReg_setReg (s : State) (r r' : Reg) (v : Byte) :
    (s.setReg r v).getReg r' = if r' = r then v else s.getReg r' := by
  cases r <;> cases r' <;> rfl

@[simp] theorem State.getReg_retire (s : State) (n : Word) (r : Reg) : (s.retire n).getReg r = s.getReg r := by
  cases r <;> rfl

@[simp] theorem State.getReg_jumpTo (s : State) (t : Word) (r : Reg) : (s.jumpTo t).getReg r = s.getReg r := by
  cases r <;> rfl

@[simp] theorem State.getReg_busWrite (s : State) (addr : Word) (v : Byte) (r : Reg) :
    (s.busWrite addr v).getReg r = s.getReg r := by
  cases r <;> simp [State.getReg]

@[simp] theorem State.getReg_memWrite16 (s : State) (addr v : Word) (r : Reg) :
    (s.memWrite16 addr v).getReg r = s.getReg r := by
  cases r <;> simp [State.getReg]

@[simp] theorem State.getReg_push16 (s : State) (v : Word) (r : Reg) : (s.push16 v).getReg r = s.getReg r := by
  cases r <;> simp [State.getReg]

@[simp] theorem State.getPair_setPair (s : State) (rp : RegPair) (v : Word) : (s.setPair rp v).getPair rp = v := by
  cases rp <;> simp [State.setPair, State.getPair, State.bc, State.de, State.hl]

/-- `operandValue` of the claims is the operand read of the meanings. -/
theorem State.read8_eq (s : State) (src : Operand8) : s.read8 src = operandValue s src := by
  cases src <;> rfl

end Sys2Proof.Machine
end

