-- ==== Sys2Proof/Laws/Branch.lean ====
section
/-! SUPPORT. The fields that the branch operations and interrupt acceptance keep, one lemma per field. -/

namespace Sys2Proof.Machine

/-! ### `State.jumpIf` -/

@[simp] theorem State.jumpIf_a (s : State) (cond : Cond) (w : Word) : (s.jumpIf cond w).a = s.a := by unfold State.jumpIf; split_ifs <;> simp
@[simp] theorem State.jumpIf_b (s : State) (cond : Cond) (w : Word) : (s.jumpIf cond w).b = s.b := by unfold State.jumpIf; split_ifs <;> simp
@[simp] theorem State.jumpIf_c (s : State) (cond : Cond) (w : Word) : (s.jumpIf cond w).c = s.c := by unfold State.jumpIf; split_ifs <;> simp
@[simp] theorem State.jumpIf_d (s : State) (cond : Cond) (w : Word) : (s.jumpIf cond w).d = s.d := by unfold State.jumpIf; split_ifs <;> simp
@[simp] theorem State.jumpIf_e (s : State) (cond : Cond) (w : Word) : (s.jumpIf cond w).e = s.e := by unfold State.jumpIf; split_ifs <;> simp
@[simp] theorem State.jumpIf_h (s : State) (cond : Cond) (w : Word) : (s.jumpIf cond w).h = s.h := by unfold State.jumpIf; split_ifs <;> simp
@[simp] theorem State.jumpIf_l (s : State) (cond : Cond) (w : Word) : (s.jumpIf cond w).l = s.l := by unfold State.jumpIf; split_ifs <;> simp
@[simp] theorem State.jumpIf_flags (s : State) (cond : Cond) (w : Word) : (s.jumpIf cond w).flags = s.flags := by unfold State.jumpIf; split_ifs <;> simp
@[simp] theorem State.jumpIf_run (s : State) (cond : Cond) (w : Word) : (s.jumpIf cond w).run = s.run := by unfold State.jumpIf; split_ifs <;> simp
@[simp] theorem State.jumpIf_inte (s : State) (cond : Cond) (w : Word) : (s.jumpIf cond w).inte = s.inte := by unfold State.jumpIf; split_ifs <;> simp
@[simp] theorem State.jumpIf_pin (s : State) (cond : Cond) (w : Word) : (s.jumpIf cond w).pin = s.pin := by unfold State.jumpIf; split_ifs <;> simp
@[simp] theorem State.jumpIf_pout (s : State) (cond : Cond) (w : Word) : (s.jumpIf cond w).pout = s.pout := by unfold State.jumpIf; split_ifs <;> simp
@[simp] theorem State.jumpIf_digits (s : State) (cond : Cond) (w : Word) : (s.jumpIf cond w).digits = s.digits := by unfold State.jumpIf; split_ifs <;> simp
@[simp] theorem State.jumpIf_key (s : State) (cond : Cond) (w : Word) : (s.jumpIf cond w).key = s.key := by unfold State.jumpIf; split_ifs <;> simp
@[simp] theorem State.jumpIf_intExt (s : State) (cond : Cond) (w : Word) :
    (s.jumpIf cond w).intExt = s.intExt.map fun x => { x with eiShadow := false } := by unfold State.jumpIf; split_ifs <;> simp
@[simp] theorem State.jumpIf_mem (s : State) (cond : Cond) (w : Word) : (s.jumpIf cond w).mem = s.mem := by unfold State.jumpIf; split_ifs <;> simp
@[simp] theorem State.busRead_jumpIf (s : State) (cond : Cond) (w : Word) (addr : Word) : (s.jumpIf cond w).busRead addr = s.busRead addr := State.busRead_congr (by simp) addr

/-! ### `State.callTo` -/

@[simp] theorem State.callTo_a (s : State) (n w : Word) : (s.callTo n w).a = s.a := by simp [State.callTo]
@[simp] theorem State.callTo_b (s : State) (n w : Word) : (s.callTo n w).b = s.b := by simp [State.callTo]
@[simp] theorem State.callTo_c (s : State) (n w : Word) : (s.callTo n w).c = s.c := by simp [State.callTo]
@[simp] theorem State.callTo_d (s : State) (n w : Word) : (s.callTo n w).d = s.d := by simp [State.callTo]
@[simp] theorem State.callTo_e (s : State) (n w : Word) : (s.callTo n w).e = s.e := by simp [State.callTo]
@[simp] theorem State.callTo_h (s : State) (n w : Word) : (s.callTo n w).h = s.h := by simp [State.callTo]
@[simp] theorem State.callTo_l (s : State) (n w : Word) : (s.callTo n w).l = s.l := by simp [State.callTo]
@[simp] theorem State.callTo_flags (s : State) (n w : Word) : (s.callTo n w).flags = s.flags := by simp [State.callTo]
@[simp] theorem State.callTo_run (s : State) (n w : Word) : (s.callTo n w).run = s.run := by simp [State.callTo]
@[simp] theorem State.callTo_inte (s : State) (n w : Word) : (s.callTo n w).inte = s.inte := by simp [State.callTo]
@[simp] theorem State.callTo_pin (s : State) (n w : Word) : (s.callTo n w).pin = s.pin := by simp [State.callTo]
@[simp] theorem State.callTo_pout (s : State) (n w : Word) : (s.callTo n w).pout = s.pout := by simp [State.callTo]
@[simp] theorem State.callTo_digits (s : State) (n w : Word) : (s.callTo n w).digits = s.digits := by simp [State.callTo]
@[simp] theorem State.callTo_key (s : State) (n w : Word) : (s.callTo n w).key = s.key := by simp [State.callTo]
@[simp] theorem State.callTo_intExt (s : State) (n w : Word) :
    (s.callTo n w).intExt = s.intExt.map fun x => { x with eiShadow := false } := by simp [State.callTo]
@[simp] theorem State.callTo_mem (s : State) (n w : Word) : (s.callTo n w).mem = (s.push16 (s.nextPc n)).mem := by simp [State.callTo]
@[simp] theorem State.callTo_sp (s : State) (n w : Word) : (s.callTo n w).sp = s.sp - 2 := by simp [State.callTo]
@[simp] theorem State.callTo_pc (s : State) (n w : Word) : (s.callTo n w).pc = w := rfl
@[simp] theorem State.busRead_callTo (s : State) (n w addr : Word) :
    (s.callTo n w).busRead addr = (s.push16 (s.nextPc n)).busRead addr := State.busRead_congr (by simp) addr

/-! ### `State.callIf` -/

@[simp] theorem State.callIf_a (s : State) (cond : Cond) (w : Word) : (s.callIf cond w).a = s.a := by unfold State.callIf; split_ifs <;> simp
@[simp] theorem State.callIf_b (s : State) (cond : Cond) (w : Word) : (s.callIf cond w).b = s.b := by unfold State.callIf; split_ifs <;> simp
@[simp] theorem State.callIf_c (s : State) (cond : Cond) (w : Word) : (s.callIf cond w).c = s.c := by unfold State.callIf; split_ifs <;> simp
@[simp] theorem State.callIf_d (s : State) (cond : Cond) (w : Word) : (s.callIf cond w).d = s.d := by unfold State.callIf; split_ifs <;> simp
@[simp] theorem State.callIf_e (s : State) (cond : Cond) (w : Word) : (s.callIf cond w).e = s.e := by unfold State.callIf; split_ifs <;> simp
@[simp] theorem State.callIf_h (s : State) (cond : Cond) (w : Word) : (s.callIf cond w).h = s.h := by unfold State.callIf; split_ifs <;> simp
@[simp] theorem State.callIf_l (s : State) (cond : Cond) (w : Word) : (s.callIf cond w).l = s.l := by unfold State.callIf; split_ifs <;> simp
@[simp] theorem State.callIf_flags (s : State) (cond : Cond) (w : Word) : (s.callIf cond w).flags = s.flags := by unfold State.callIf; split_ifs <;> simp
@[simp] theorem State.callIf_run (s : State) (cond : Cond) (w : Word) : (s.callIf cond w).run = s.run := by unfold State.callIf; split_ifs <;> simp
@[simp] theorem State.callIf_inte (s : State) (cond : Cond) (w : Word) : (s.callIf cond w).inte = s.inte := by unfold State.callIf; split_ifs <;> simp
@[simp] theorem State.callIf_pin (s : State) (cond : Cond) (w : Word) : (s.callIf cond w).pin = s.pin := by unfold State.callIf; split_ifs <;> simp
@[simp] theorem State.callIf_pout (s : State) (cond : Cond) (w : Word) : (s.callIf cond w).pout = s.pout := by unfold State.callIf; split_ifs <;> simp
@[simp] theorem State.callIf_digits (s : State) (cond : Cond) (w : Word) : (s.callIf cond w).digits = s.digits := by unfold State.callIf; split_ifs <;> simp
@[simp] theorem State.callIf_key (s : State) (cond : Cond) (w : Word) : (s.callIf cond w).key = s.key := by unfold State.callIf; split_ifs <;> simp
@[simp] theorem State.callIf_intExt (s : State) (cond : Cond) (w : Word) :
    (s.callIf cond w).intExt = s.intExt.map fun x => { x with eiShadow := false } := by unfold State.callIf; split_ifs <;> simp

/-! ### `State.returnToCaller` -/

@[simp] theorem State.returnToCaller_a (s : State) : s.returnToCaller.a = s.a := by simp [State.returnToCaller, State.pop16]
@[simp] theorem State.returnToCaller_b (s : State) : s.returnToCaller.b = s.b := by simp [State.returnToCaller, State.pop16]
@[simp] theorem State.returnToCaller_c (s : State) : s.returnToCaller.c = s.c := by simp [State.returnToCaller, State.pop16]
@[simp] theorem State.returnToCaller_d (s : State) : s.returnToCaller.d = s.d := by simp [State.returnToCaller, State.pop16]
@[simp] theorem State.returnToCaller_e (s : State) : s.returnToCaller.e = s.e := by simp [State.returnToCaller, State.pop16]
@[simp] theorem State.returnToCaller_h (s : State) : s.returnToCaller.h = s.h := by simp [State.returnToCaller, State.pop16]
@[simp] theorem State.returnToCaller_l (s : State) : s.returnToCaller.l = s.l := by simp [State.returnToCaller, State.pop16]
@[simp] theorem State.returnToCaller_flags (s : State) : s.returnToCaller.flags = s.flags := by simp [State.returnToCaller, State.pop16]
@[simp] theorem State.returnToCaller_run (s : State) : s.returnToCaller.run = s.run := by simp [State.returnToCaller, State.pop16]
@[simp] theorem State.returnToCaller_inte (s : State) : s.returnToCaller.inte = s.inte := by simp [State.returnToCaller, State.pop16]
@[simp] theorem State.returnToCaller_pin (s : State) : s.returnToCaller.pin = s.pin := by simp [State.returnToCaller, State.pop16]
@[simp] theorem State.returnToCaller_pout (s : State) : s.returnToCaller.pout = s.pout := by simp [State.returnToCaller, State.pop16]
@[simp] theorem State.returnToCaller_digits (s : State) : s.returnToCaller.digits = s.digits := by simp [State.returnToCaller, State.pop16]
@[simp] theorem State.returnToCaller_key (s : State) : s.returnToCaller.key = s.key := by simp [State.returnToCaller, State.pop16]
@[simp] theorem State.returnToCaller_intExt (s : State) :
    s.returnToCaller.intExt = s.intExt.map fun x => { x with eiShadow := false } := by simp [State.returnToCaller, State.pop16]
@[simp] theorem State.returnToCaller_mem (s : State) : s.returnToCaller.mem = s.mem := by simp [State.returnToCaller, State.pop16]
@[simp] theorem State.busRead_returnToCaller (s : State) (addr : Word) : s.returnToCaller.busRead addr = s.busRead addr := State.busRead_congr (by simp) addr

/-! ### `State.returnIf` -/

@[simp] theorem State.returnIf_a (s : State) (cond : Cond) : (s.returnIf cond).a = s.a := by unfold State.returnIf; split_ifs <;> simp
@[simp] theorem State.returnIf_b (s : State) (cond : Cond) : (s.returnIf cond).b = s.b := by unfold State.returnIf; split_ifs <;> simp
@[simp] theorem State.returnIf_c (s : State) (cond : Cond) : (s.returnIf cond).c = s.c := by unfold State.returnIf; split_ifs <;> simp
@[simp] theorem State.returnIf_d (s : State) (cond : Cond) : (s.returnIf cond).d = s.d := by unfold State.returnIf; split_ifs <;> simp
@[simp] theorem State.returnIf_e (s : State) (cond : Cond) : (s.returnIf cond).e = s.e := by unfold State.returnIf; split_ifs <;> simp
@[simp] theorem State.returnIf_h (s : State) (cond : Cond) : (s.returnIf cond).h = s.h := by unfold State.returnIf; split_ifs <;> simp
@[simp] theorem State.returnIf_l (s : State) (cond : Cond) : (s.returnIf cond).l = s.l := by unfold State.returnIf; split_ifs <;> simp
@[simp] theorem State.returnIf_flags (s : State) (cond : Cond) : (s.returnIf cond).flags = s.flags := by unfold State.returnIf; split_ifs <;> simp
@[simp] theorem State.returnIf_run (s : State) (cond : Cond) : (s.returnIf cond).run = s.run := by unfold State.returnIf; split_ifs <;> simp
@[simp] theorem State.returnIf_inte (s : State) (cond : Cond) : (s.returnIf cond).inte = s.inte := by unfold State.returnIf; split_ifs <;> simp
@[simp] theorem State.returnIf_pin (s : State) (cond : Cond) : (s.returnIf cond).pin = s.pin := by unfold State.returnIf; split_ifs <;> simp
@[simp] theorem State.returnIf_pout (s : State) (cond : Cond) : (s.returnIf cond).pout = s.pout := by unfold State.returnIf; split_ifs <;> simp
@[simp] theorem State.returnIf_digits (s : State) (cond : Cond) : (s.returnIf cond).digits = s.digits := by unfold State.returnIf; split_ifs <;> simp
@[simp] theorem State.returnIf_key (s : State) (cond : Cond) : (s.returnIf cond).key = s.key := by unfold State.returnIf; split_ifs <;> simp
@[simp] theorem State.returnIf_intExt (s : State) (cond : Cond) :
    (s.returnIf cond).intExt = s.intExt.map fun x => { x with eiShadow := false } := by unfold State.returnIf; split_ifs <;> simp
@[simp] theorem State.returnIf_mem (s : State) (cond : Cond) : (s.returnIf cond).mem = s.mem := by unfold State.returnIf; split_ifs <;> simp
@[simp] theorem State.busRead_returnIf (s : State) (cond : Cond) (addr : Word) : (s.returnIf cond).busRead addr = s.busRead addr := State.busRead_congr (by simp) addr

/-! ### `State.acceptInterrupt` -/

@[simp] theorem State.acceptInterrupt_a (s : State) (n : Fin 8) : (s.acceptInterrupt n).a = s.a := by simp [State.acceptInterrupt]
@[simp] theorem State.acceptInterrupt_b (s : State) (n : Fin 8) : (s.acceptInterrupt n).b = s.b := by simp [State.acceptInterrupt]
@[simp] theorem State.acceptInterrupt_c (s : State) (n : Fin 8) : (s.acceptInterrupt n).c = s.c := by simp [State.acceptInterrupt]
@[simp] theorem State.acceptInterrupt_d (s : State) (n : Fin 8) : (s.acceptInterrupt n).d = s.d := by simp [State.acceptInterrupt]
@[simp] theorem State.acceptInterrupt_e (s : State) (n : Fin 8) : (s.acceptInterrupt n).e = s.e := by simp [State.acceptInterrupt]
@[simp] theorem State.acceptInterrupt_h (s : State) (n : Fin 8) : (s.acceptInterrupt n).h = s.h := by simp [State.acceptInterrupt]
@[simp] theorem State.acceptInterrupt_l (s : State) (n : Fin 8) : (s.acceptInterrupt n).l = s.l := by simp [State.acceptInterrupt]
@[simp] theorem State.acceptInterrupt_flags (s : State) (n : Fin 8) : (s.acceptInterrupt n).flags = s.flags := by simp [State.acceptInterrupt]
@[simp] theorem State.acceptInterrupt_run (s : State) (n : Fin 8) : (s.acceptInterrupt n).run = s.run := by simp [State.acceptInterrupt]
@[simp] theorem State.acceptInterrupt_pin (s : State) (n : Fin 8) : (s.acceptInterrupt n).pin = s.pin := by simp [State.acceptInterrupt]
@[simp] theorem State.acceptInterrupt_pout (s : State) (n : Fin 8) : (s.acceptInterrupt n).pout = s.pout := by simp [State.acceptInterrupt]
@[simp] theorem State.acceptInterrupt_digits (s : State) (n : Fin 8) : (s.acceptInterrupt n).digits = s.digits := by simp [State.acceptInterrupt]
@[simp] theorem State.acceptInterrupt_key (s : State) (n : Fin 8) : (s.acceptInterrupt n).key = s.key := by simp [State.acceptInterrupt]
@[simp] theorem State.acceptInterrupt_sp (s : State) (n : Fin 8) : (s.acceptInterrupt n).sp = s.sp - 2 := rfl
@[simp] theorem State.acceptInterrupt_pc (s : State) (n : Fin 8) : (s.acceptInterrupt n).pc = restartVector n := rfl
@[simp] theorem State.acceptInterrupt_inte (s : State) (n : Fin 8) : (s.acceptInterrupt n).inte = false := rfl
@[simp] theorem State.acceptInterrupt_mem (s : State) (n : Fin 8) : (s.acceptInterrupt n).mem = (s.push16 s.pc).mem := rfl
@[simp] theorem State.acceptInterrupt_intExt (s : State) (n : Fin 8) :
    (s.acceptInterrupt n).intExt = s.intExt.map fun x => { x with pending := none } := rfl

end Sys2Proof.Machine
end

