-- ==== Sys2Proof/Laws/Decode.lean ====
section
/-! SUPPORT. The laws of the opcode map: every row is faithful to the encoder. -/

namespace Sys2Proof

open Sys2Proof.Machine

/-- What a row of the opcode map owes to its opcode: well-formed instructions that the encoder writes with it. -/
def Shape.Faithful (op : Byte) : Shape → Prop
  | .one i => i.wf = true ∧ encode i = [op]
  | .two build => ∀ d8, (build d8).wf = true ∧ encode (build d8) = [op, d8]
  | .three build => ∀ w, (build w).wf = true ∧ encode (build w) = [op, lowByte w, highByte w]

/-- An opcode is its three fields (`30_encoding.md` R71). -/
theorem opcode_eq_fields (op : Byte) :
    op = BitVec.ofNat 8 (64 * (fieldGrp op).val + 8 * (fieldMid op).val + (fieldLow op).val) := by
  have := op.isLt
  apply BitVec.eq_of_toNat_eq
  simp only [fieldGrp, fieldMid, fieldLow, BitVec.toNat_ofNat]
  omega

theorem decodeOpcode_of_illegal {op : Byte} (h : Config.illegalSet.contains op = true) :
    decodeOpcode op = .one (.illegal op) := by
  rw [decodeOpcode, if_pos h]

/-- Every row of the map (`30_encoding.md` R76) is faithful. -/
theorem decodeOpcode_faithful (op : Byte) : (decodeOpcode op).Faithful op := by
  by_cases hc : Config.illegalSet.contains op = true
  · rw [decodeOpcode_of_illegal hc]
    exact ⟨hc, by simp [encode]⟩
  rw [decodeOpcode, if_neg hc]
  have he := opcode_eq_fields op
  generalize fieldMid op = m at *
  generalize fieldLow op = l at *
  generalize fieldGrp op = g at *
  subst he
  fin_cases g
  · fin_cases l <;> fin_cases m <;>
      first | exact absurd rfl hc | exact ⟨rfl, rfl⟩ | exact fun _ => ⟨rfl, rfl⟩
  · fin_cases l <;> fin_cases m <;> exact ⟨rfl, rfl⟩
  · fin_cases l <;> fin_cases m <;> exact ⟨rfl, rfl⟩
  · fin_cases l <;> fin_cases m <;>
      first | exact absurd rfl hc | exact ⟨rfl, rfl⟩ | exact fun _ => ⟨rfl, rfl⟩

theorem decode_cons (op : Byte) (tail : List Byte) : decode (op :: tail) = (decodeOpcode op).take op tail := rfl

/-- A three-byte row: low byte second, high byte third (`30_encoding.md` R75). -/
theorem decode_three {op : Byte} {build : Word → Instr} (h : decodeOpcode op = .three build) (w : Word)
    (rest : List Byte) : decode (op :: lowByte w :: highByte w :: rest) = .instr (build w) rest := by
  simp [decode_cons, h, Shape.take, imm16]

/-- What is fetched is well formed, and its encoding starts with the byte at PC. -/
theorem fetch_faithful (s : State) : s.fetch.wf = true ∧ (encode s.fetch).head? = some (s.busRead s.pc) := by
  have h := decodeOpcode_faithful (s.busRead s.pc)
  unfold State.fetch
  cases hd : decodeOpcode (s.busRead s.pc) with
  | one i => rw [hd] at h; exact ⟨h.1, by simp [h.2]⟩
  | two f => rw [hd] at h; exact ⟨(h _).1, by simp [(h _).2]⟩
  | three f => rw [hd] at h; exact ⟨(h _).1, by simp [(h _).2]⟩

end Sys2Proof
end

