-- ==== Sys2Proof/Laws/Flags.lean ====
section
/-! SUPPORT. What each flag computation gives, stated once. -/

namespace Sys2Proof.Machine

@[simp] theorem Flags.setZSP_cy (f : Flags) (v : Byte) : (f.setZSP v).cy = f.cy := rfl
@[simp] theorem Flags.setZSP_ac (f : Flags) (v : Byte) : (f.setZSP v).ac = f.ac := rfl
@[simp] theorem Flags.setZSP_z (f : Flags) (v : Byte) : (f.setZSP v).z = (v == 0) := rfl
@[simp] theorem Flags.setZSP_s (f : Flags) (v : Byte) : (f.setZSP v).s = v.getLsbD 7 := rfl
@[simp] theorem Flags.setZSP_p (f : Flags) (v : Byte) : (f.setZSP v).p = parity8 v := rfl

theorem popcount_eq_onesOf : ∀ v : Byte, popcount v = onesOf v := by decide

theorem getLsbD_seven_iff : ∀ v : Byte, v.getLsbD 7 = true ↔ v.toNat ≥ 128 := by decide

/-- `set_ZSP` in the terms of the claims. -/
theorem zspOf_setZSP (f : Flags) (v : Byte) : ZspOf (f.setZSP v) v where
  z := by simp [BitVec.toNat_eq]
  s := getLsbD_seven_iff v
  p := by simp [parity8, popcount_eq_onesOf]

/-- Everything `add8` gives. -/
theorem add8_spec (a b : Byte) (c : Bool) : AddFlags a.toNat b.toNat c.toNat (add8 a b c).1 (add8 a b c).2 where
  value := by simp [add8]
  cy := by simp [add8]
  ac := by simp [add8, lowNibble]
  zsp := zspOf_setZSP _ _

theorem lowNibble_not (b : Byte) : lowNibble (~~~b) = 15 - b.toNat % 16 := by
  have := b.isLt
  simp only [lowNibble, BitVec.toNat_not]
  omega

/-- Everything `sub8` gives. -/
theorem sub8_spec (a b : Byte) (c : Bool) : SubFlags a.toNat b.toNat c.toNat (sub8 a b c).1 (sub8 a b c).2 where
  value := by
    have ha := a.isLt
    have hb := b.isLt
    have hc := Bool.toNat_le c
    simp only [sub8, BitVec.toNat_ofInt]
    omega
  cy := by
    simp only [sub8, Flags.setZSP_cy, decide_eq_true_eq]
    omega
  ac := by
    have hc := Bool.toNat_le c
    simp only [sub8, Flags.setZSP_ac, lowNibble_not, decide_eq_true_eq]
    simp only [lowNibble]
    omega
  zsp := zspOf_setZSP _ _

/-- PUSH PSW and POP PSW agree on the five flags (`10_state.md` R15). -/
@[simp] theorem Flags.ofByte_toByte (f : Flags) : Flags.ofByte f.toByte = f := by
  obtain ⟨z, s, p, cy, ac⟩ := f
  revert z s p cy ac
  decide

/-- The fixed bits of the flag byte (`10_state.md` R15). -/
theorem Flags.toByte_ofByte : ∀ v : Byte, (Flags.ofByte v).toByte = (v &&& 0xD7) ||| 0x02 := by decide

end Sys2Proof.Machine
end

