-- ==== Sys2Proof/Laws/Frame.lean ====
section
/-! SUPPORT. The frames of the shared operations: everything that an instruction built on one of them keeps. -/

namespace Sys2Proof.Machine

/-- Retiring keeps what `SystemKept` keeps. -/
theorem SystemKept.retire {s u : State} (n : Word) (h : SystemKept s u) : SystemKept s (u.retire n) where
  run := h.run
  inte := h.inte
  pin := h.pin
  pout := h.pout
  digits := h.digits
  key := h.key
  request := by simp [← h.request, Function.comp_def]

/-- Setting PC keeps what `SystemKept` keeps. -/
theorem SystemKept.jumpTo {s u : State} (n : Word) (h : SystemKept s u) : SystemKept s (u.jumpTo n) where
  run := h.run
  inte := h.inte
  pin := h.pin
  pout := h.pout
  digits := h.digits
  key := h.key
  request := by simp [← h.request, Function.comp_def]

/-- Everything that loading a register and retiring does. -/
theorem loadsRegister_setReg_retire (s : State) (r : Reg) (v : Byte) (n : Word) :
    LoadsRegister r v n s ((s.setReg r v).retire n) where
  loaded := by simp
  regs := by
    intro q hq
    have : q ≠ r := by simpa using hq
    simp [this]
  sp := by simp
  flags := by simp
  mem := by intro a; simp
  pc := by simp
  system := .retire _ (by constructor <;> simp)

/-- Everything that storing one byte and retiring does. -/
theorem storesBytes_busWrite_retire (s : State) (a : Word) (v : Byte) (n : Word) :
    StoresBytes [(a, v)] n s ((s.busWrite a v).retire n) where
  mem := fun x => by simpa using State.memAfter_busWrite s a v x
  regs := fun _ _ => by simp
  sp := by simp
  flags := by simp
  pc := by simp
  system := .retire _ (by constructor <;> simp)

/-- The frame of an ALU result in A and the flags. -/
theorem accumulatorOnly_setAccFlags_retire (s : State) (r : Byte × Flags) (n : Word) :
    AccumulatorOnly n s ((s.setAccFlags r).retire n) where
  regs := by
    intro q hq
    cases q <;> simp at hq <;> simp [State.getReg]
  sp := by simp
  mem := by intro a; simp
  pc := by simp
  system := .retire _ (by constructor <;> simp)

/-- Memory after an ALU result is written to the byte at H, L and the instruction retires. -/
theorem memAfter_write8Flags_m_retire (s : State) (r : Byte × Flags) (n : Word) :
    MemAfter [(wordOf s.h s.l, r.1)] s ((s.write8Flags .m r).retire n) := by
  intro x
  rw [State.busRead_retire, State.busRead_write8Flags]
  exact State.memAfter_busWrite s s.hl r.1 x

/-- The stack after a push, whichever region its bytes lie in. -/
theorem pushesWord_push16 (s : State) (w : Word) : PushesWord w.toNat s (s.push16 w) := by
  refine ⟨fun x => ?_, rfl⟩
  have hne : s.sp - 1 ≠ s.sp - 2 := by bv_omega
  rw [← highByte_eq, ← lowByte_eq, State.memAfter_push16 s w x]
  congr 2
  simp only [List.lookup_cons, List.lookup_nil]
  by_cases h : x = s.sp - 1
  · subst h
    simp only [beq_self_eq_true, beq_eq_false_iff_ne.mpr hne]
  · simp only [beq_eq_false_iff_ne.mpr h]

end Sys2Proof.Machine
end

