-- ==== Sys2Proof/Laws/Ports.lean ====
section
/-! SUPPORT. The laws of the port latches and of the display. -/

namespace Sys2Proof.Machine

/-! ### Digits (`60_exceptions.md` R242) -/

@[simp] theorem Digits.get_set (ds : Digits) (i j : Fin 6) (v : Byte) :
    (ds.set i v).get j = if j = i then v else ds.get j := by
  fin_cases i <;> fin_cases j <;> rfl

theorem Digits.ext_get {ds ds' : Digits} (h : ∀ i, ds.get i = ds'.get i) : ds = ds' := by
  obtain ⟨d0, d1, d2, d3, d4, d5⟩ := ds
  obtain ⟨e0, e1, e2, e3, e4, e5⟩ := ds'
  have h0 := h 0
  have h1 := h 1
  have h2 := h 2
  have h3 := h 3
  have h4 := h 4
  have h5 := h 5
  simp only [Digits.get] at h0 h1 h2 h3 h4 h5
  simp [h0, h1, h2, h3, h4, h5]

/-- The select bits of the decided display wiring (D9). -/
theorem digitSelected_eq (scan : Byte) (i : Fin 6) : digitSelected scan i = scan.getLsbD i.val := by
  simp [digitSelected, Config.scanBitOfDigit, Config.scanActiveHigh]

/-- A refresh round changes digits only. -/
theorem refreshDigit_eq (scan pattern : Byte) (s : State) (i : Fin 6) :
    refreshDigit scan pattern s i =
      { s with digits := if digitSelected scan i then s.digits.set i pattern else s.digits } := by
  unfold refreshDigit
  split_ifs <;> rfl

theorem State.readDigit_refreshDigit (scan pattern : Byte) (s : State) (i j : Fin 6) :
    (refreshDigit scan pattern s j).readDigit i =
      if i = j ∧ digitSelected scan j = true then pattern else s.readDigit i := by
  unfold refreshDigit
  by_cases h : digitSelected scan j = true <;> simp [h, State.readDigit]

/-- Everything the display update does: each selected digit takes the segment latch, nothing else changes (R241). -/
theorem State.refreshDisplay_eq (s : State) :
    s.refreshDisplay = { s with digits := s.refreshDisplay.digits } := by
  simp [State.refreshDisplay, refreshDigit_eq]

theorem State.readDigit_refreshDisplay (s : State) (i : Fin 6) :
    s.refreshDisplay.readDigit i =
      if digitSelected (s.outputLatch Config.portDispScan) i then s.outputLatch Config.portDispSeg
      else s.readDigit i := by
  simp only [State.refreshDisplay, List.foldl_cons, List.foldl_nil, State.readDigit_refreshDigit]
  fin_cases i <;> simp

/-! ### Latches (`20_memory.md` R51, R52) -/

@[simp] theorem State.outputLatch_setOutputLatch (s : State) (port q v : Byte) :
    (s.setOutputLatch port v).outputLatch q = if q = port then v else s.outputLatch q := by
  simp [State.outputLatch, BitVec.toNat_inj]

@[simp] theorem State.inputLatch_setInputLatch (s : State) (port q v : Byte) :
    (s.setInputLatch port v).inputLatch q = if q = port then v else s.inputLatch q := by
  simp [State.inputLatch, BitVec.toNat_inj]

/-- A port write changes the output latches and the digits only. -/
theorem State.portWrite_eq (s : State) (port v : Byte) :
    s.portWrite port v =
      { s with pout := (s.portWrite port v).pout, digits := (s.portWrite port v).digits } := by
  unfold State.portWrite
  split_ifs
  · rw [State.refreshDisplay_eq]
    simp [State.setOutputLatch, Config.portShared]
  · simp [State.setOutputLatch, Config.portShared]

theorem State.portWrite_pout (s : State) (port v : Byte) :
    (s.portWrite port v).pout = Cells.set Config.portInit s.pout port.toNat v := by
  unfold State.portWrite
  split_ifs
  · rw [State.refreshDisplay_eq]
    simp
  · simp

theorem State.outputLatch_portWrite (s : State) (port q v : Byte) :
    (s.portWrite port v).outputLatch q = if q = port then v else s.outputLatch q := by
  simp [State.outputLatch, State.portWrite_pout, BitVec.toNat_inj]

theorem State.portWrite_digits_of_ne {s : State} {port v : Byte} (h : port ≠ 0x06) (h' : port ≠ 0x07) :
    (s.portWrite port v).digits = s.digits := by
  have hn : ¬ (port = Config.portDispSeg ∨ port = Config.portDispScan) := by
    rintro (rfl | rfl)
    exacts [h rfl, h' rfl]
  rw [State.portWrite, if_neg hn, State.setOutputLatch_digits]

/-- The digits after a port write: the display ports refresh every selected digit from the latches (R52, R241). -/
theorem State.readDigit_portWrite (s : State) (port v : Byte) (i : Fin 6) :
    (s.portWrite port v).readDigit i =
      if (port = 0x06 ∨ port = 0x07) ∧ ((s.portWrite port v).outputLatch 0x07).getLsbD i.val = true then
        (s.portWrite port v).outputLatch 0x06
      else s.readDigit i := by
  simp only [State.outputLatch_portWrite]
  unfold State.portWrite
  rw [show Config.portDispScan = (0x07 : Byte) from rfl, show Config.portDispSeg = (0x06 : Byte) from rfl]
  by_cases h : port = 0x06 ∨ port = 0x07
  · rw [if_pos h, State.readDigit_refreshDisplay, digitSelected_eq]
    simp only [h, true_and, State.outputLatch_setOutputLatch]
    rfl
  · rw [if_neg h]
    simp only [h, false_and, if_false]
    simp [State.readDigit]

/-! ### The fields that a port write keeps -/

@[simp] theorem State.portWrite_a (s : State) (port v : Byte) : (s.portWrite port v).a = s.a := by
  rw [State.portWrite_eq]
@[simp] theorem State.portWrite_b (s : State) (port v : Byte) : (s.portWrite port v).b = s.b := by
  rw [State.portWrite_eq]
@[simp] theorem State.portWrite_c (s : State) (port v : Byte) : (s.portWrite port v).c = s.c := by
  rw [State.portWrite_eq]
@[simp] theorem State.portWrite_d (s : State) (port v : Byte) : (s.portWrite port v).d = s.d := by
  rw [State.portWrite_eq]
@[simp] theorem State.portWrite_e (s : State) (port v : Byte) : (s.portWrite port v).e = s.e := by
  rw [State.portWrite_eq]
@[simp] theorem State.portWrite_h (s : State) (port v : Byte) : (s.portWrite port v).h = s.h := by
  rw [State.portWrite_eq]
@[simp] theorem State.portWrite_l (s : State) (port v : Byte) : (s.portWrite port v).l = s.l := by
  rw [State.portWrite_eq]
@[simp] theorem State.portWrite_sp (s : State) (port v : Byte) : (s.portWrite port v).sp = s.sp := by
  rw [State.portWrite_eq]
@[simp] theorem State.portWrite_pc (s : State) (port v : Byte) : (s.portWrite port v).pc = s.pc := by
  rw [State.portWrite_eq]
@[simp] theorem State.portWrite_flags (s : State) (port v : Byte) : (s.portWrite port v).flags = s.flags := by
  rw [State.portWrite_eq]
@[simp] theorem State.portWrite_run (s : State) (port v : Byte) : (s.portWrite port v).run = s.run := by
  rw [State.portWrite_eq]
@[simp] theorem State.portWrite_inte (s : State) (port v : Byte) : (s.portWrite port v).inte = s.inte := by
  rw [State.portWrite_eq]
@[simp] theorem State.portWrite_mem (s : State) (port v : Byte) : (s.portWrite port v).mem = s.mem := by
  rw [State.portWrite_eq]
@[simp] theorem State.portWrite_pin (s : State) (port v : Byte) : (s.portWrite port v).pin = s.pin := by
  rw [State.portWrite_eq]
@[simp] theorem State.portWrite_key (s : State) (port v : Byte) : (s.portWrite port v).key = s.key := by
  rw [State.portWrite_eq]
@[simp] theorem State.portWrite_intExt (s : State) (port v : Byte) : (s.portWrite port v).intExt = s.intExt := by
  rw [State.portWrite_eq]

@[simp] theorem State.getReg_portWrite (s : State) (port v : Byte) (r : Reg) :
    (s.portWrite port v).getReg r = s.getReg r := by
  cases r <;> simp [State.getReg]

@[simp] theorem State.busRead_portWrite (s : State) (port v : Byte) (addr : Word) :
    (s.portWrite port v).busRead addr = s.busRead addr := State.busRead_congr (by simp) addr

/-! ### Canonical latch arrays -/

theorem PortLatches.wf_setOutputLatch {s : State} (port v : Byte) (h : PortLatches.wf s.pout = true) :
    PortLatches.wf (s.setOutputLatch port v).pout = true := by
  rw [State.setOutputLatch_pout]
  exact Cells.wfFrom_set v h port.isLt

theorem PortLatches.wf_setInputLatch {s : State} (port v : Byte) (h : PortLatches.wf s.pin = true) :
    PortLatches.wf (s.setInputLatch port v).pin = true := by
  rw [State.setInputLatch_pin]
  exact Cells.wfFrom_set v h port.isLt

theorem PortLatches.wf_portWrite {s : State} (port v : Byte) (h : PortLatches.wf s.pout = true) :
    PortLatches.wf (s.portWrite port v).pout = true := by
  rw [State.portWrite_pout]
  exact Cells.wfFrom_set v h port.isLt

end Sys2Proof.Machine
end

