-- ==== Sys2Proof/Laws/Independence.lean ====
section
/-! SUPPORT. The shared operations neither read nor write INTE or the keyboard: each commutes with changing that field. -/

namespace Sys2Proof.Machine

/-! ### inte -/

theorem State.setReg_withInte (s : State) (b : Bool) (r : Reg) (v : Byte) :
    State.setReg { s with inte := b } r v = { s.setReg r v with inte := b } := by cases r <;> rfl

theorem State.setPair_withInte (s : State) (b : Bool) (rp : RegPair) (v : Word) :
    State.setPair { s with inte := b } rp v = { s.setPair rp v with inte := b } := by cases rp <;> rfl

theorem State.setStackPair_withInte (s : State) (b : Bool) (rp : StackPair) (v : Word) :
    State.setStackPair { s with inte := b } rp v = { s.setStackPair rp v with inte := b } := by cases rp <;> rfl

theorem State.getReg_withInte (s : State) (b : Bool) (r : Reg) :
    State.getReg { s with inte := b } r = s.getReg r := by cases r <;> rfl

theorem State.getPair_withInte (s : State) (b : Bool) (rp : RegPair) :
    State.getPair { s with inte := b } rp = s.getPair rp := by cases rp <;> rfl

theorem State.getStackPair_withInte (s : State) (b : Bool) (rp : StackPair) :
    State.getStackPair { s with inte := b } rp = s.getStackPair rp := by cases rp <;> rfl

theorem State.getIndexPair_withInte (s : State) (b : Bool) (rp : IndexPair) :
    State.getIndexPair { s with inte := b } rp = s.getIndexPair rp := by cases rp <;> rfl

theorem State.read8_withInte (s : State) (b : Bool) (src : Operand8) :
    State.read8 { s with inte := b } src = s.read8 src := by
  cases src with
  | reg r => exact State.getReg_withInte s b r
  | m => rfl

theorem State.busWrite_withInte (s : State) (b : Bool) (addr : Word) (v : Byte) :
    State.busWrite { s with inte := b } addr v = { s.busWrite addr v with inte := b } := by
  rw [State.busWrite_eq, State.busWrite_eq]
  split <;> rfl

theorem State.memWrite16_withInte (s : State) (b : Bool) (addr v : Word) :
    State.memWrite16 { s with inte := b } addr v = { s.memWrite16 addr v with inte := b } := by
  simp only [State.memWrite16, State.busWrite_withInte]

theorem State.push16_withInte (s : State) (b : Bool) (v : Word) :
    State.push16 { s with inte := b } v = { s.push16 v with inte := b } := by
  simp only [State.push16, State.busWrite_withInte]

theorem State.write8_withInte (s : State) (b : Bool) (dst : Operand8) (v : Byte) :
    State.write8 { s with inte := b } dst v = { s.write8 dst v with inte := b } := by
  cases dst with
  | reg r => exact State.setReg_withInte s b r v
  | m => exact State.busWrite_withInte s b s.hl v

theorem State.write8Flags_withInte (s : State) (b : Bool) (dst : Operand8) (r : Byte × Flags) :
    State.write8Flags { s with inte := b } dst r = { s.write8Flags dst r with inte := b } := by
  simp only [State.write8Flags, State.write8_withInte]

theorem State.callIf_withInte (s : State) (b : Bool) (cond : Cond) (addr : Word) :
    State.callIf { s with inte := b } cond addr = { s.callIf cond addr with inte := b } := by
  unfold State.callIf
  by_cases h : s.flags.cond cond = true
  · rw [if_pos h, if_pos h]
    simp only [State.callTo, State.push16_withInte, State.nextPc]
    rfl
  · rw [if_neg h, if_neg h]
    rfl

theorem State.portWrite_withInte (s : State) (b : Bool) (port v : Byte) :
    State.portWrite { s with inte := b } port v = { s.portWrite port v with inte := b } := by
  unfold State.portWrite
  split_ifs
  · rw [State.refreshDisplay_eq, State.refreshDisplay_eq (s.setOutputLatch port v)]
    simp [State.refreshDisplay, refreshDigit_eq, State.setOutputLatch, State.outputLatch]
  · rfl

/-! ### key -/

theorem State.setReg_withKey (s : State) (b : Option Byte) (r : Reg) (v : Byte) :
    State.setReg { s with key := b } r v = { s.setReg r v with key := b } := by cases r <;> rfl

theorem State.setPair_withKey (s : State) (b : Option Byte) (rp : RegPair) (v : Word) :
    State.setPair { s with key := b } rp v = { s.setPair rp v with key := b } := by cases rp <;> rfl

theorem State.setStackPair_withKey (s : State) (b : Option Byte) (rp : StackPair) (v : Word) :
    State.setStackPair { s with key := b } rp v = { s.setStackPair rp v with key := b } := by cases rp <;> rfl

theorem State.getReg_withKey (s : State) (b : Option Byte) (r : Reg) :
    State.getReg { s with key := b } r = s.getReg r := by cases r <;> rfl

theorem State.getPair_withKey (s : State) (b : Option Byte) (rp : RegPair) :
    State.getPair { s with key := b } rp = s.getPair rp := by cases rp <;> rfl

theorem State.getStackPair_withKey (s : State) (b : Option Byte) (rp : StackPair) :
    State.getStackPair { s with key := b } rp = s.getStackPair rp := by cases rp <;> rfl

theorem State.getIndexPair_withKey (s : State) (b : Option Byte) (rp : IndexPair) :
    State.getIndexPair { s with key := b } rp = s.getIndexPair rp := by cases rp <;> rfl

theorem State.read8_withKey (s : State) (b : Option Byte) (src : Operand8) :
    State.read8 { s with key := b } src = s.read8 src := by
  cases src with
  | reg r => exact State.getReg_withKey s b r
  | m => rfl

theorem State.busWrite_withKey (s : State) (b : Option Byte) (addr : Word) (v : Byte) :
    State.busWrite { s with key := b } addr v = { s.busWrite addr v with key := b } := by
  rw [State.busWrite_eq, State.busWrite_eq]
  split <;> rfl

theorem State.memWrite16_withKey (s : State) (b : Option Byte) (addr v : Word) :
    State.memWrite16 { s with key := b } addr v = { s.memWrite16 addr v with key := b } := by
  simp only [State.memWrite16, State.busWrite_withKey]

theorem State.push16_withKey (s : State) (b : Option Byte) (v : Word) :
    State.push16 { s with key := b } v = { s.push16 v with key := b } := by
  simp only [State.push16, State.busWrite_withKey]

theorem State.write8_withKey (s : State) (b : Option Byte) (dst : Operand8) (v : Byte) :
    State.write8 { s with key := b } dst v = { s.write8 dst v with key := b } := by
  cases dst with
  | reg r => exact State.setReg_withKey s b r v
  | m => exact State.busWrite_withKey s b s.hl v

theorem State.write8Flags_withKey (s : State) (b : Option Byte) (dst : Operand8) (r : Byte × Flags) :
    State.write8Flags { s with key := b } dst r = { s.write8Flags dst r with key := b } := by
  simp only [State.write8Flags, State.write8_withKey]

theorem State.callIf_withKey (s : State) (b : Option Byte) (cond : Cond) (addr : Word) :
    State.callIf { s with key := b } cond addr = { s.callIf cond addr with key := b } := by
  unfold State.callIf
  by_cases h : s.flags.cond cond = true
  · rw [if_pos h, if_pos h]
    simp only [State.callTo, State.push16_withKey, State.nextPc]
    rfl
  · rw [if_neg h, if_neg h]
    rfl

theorem State.portWrite_withKey (s : State) (b : Option Byte) (port v : Byte) :
    State.portWrite { s with key := b } port v = { s.portWrite port v with key := b } := by
  unfold State.portWrite
  split_ifs
  · rw [State.refreshDisplay_eq, State.refreshDisplay_eq (s.setOutputLatch port v)]
    simp [State.refreshDisplay, refreshDigit_eq, State.setOutputLatch, State.outputLatch]
  · rfl

end Sys2Proof.Machine
end

