-- ==== Sys2Proof/Laws/PerInstr.lean ====
section
/-! SUPPORT. Statements made per instruction, one lemma per constructor of Instr. -/

namespace Sys2Proof.Laws.EncodedLength

/-- The encoding is as long as the format of the instruction says: 3 bytes for format F3, 2 for F2, 1 for every other
(`30_encoding.md` R71, R80). -/
def Statement (i : Instr) : Prop :=
  (encode i).length =
    match i with
    | .lxi _ _ | .lda _ | .sta _ | .lhld _ | .shld _ => 3
    | .jmp _ | .jnz _ | .jz _ | .jnc _ | .jc _ | .jpo _ | .jpe _ | .jp _ | .jm _ => 3
    | .call _ | .cnz _ | .cz _ | .cnc _ | .cc _ | .cpo _ | .cpe _ | .cp _ | .cm _ => 3
    | .mvi _ _ | .adi _ | .aci _ | .sui _ | .sbi _ | .ani _ | .xri _ | .ori _ | .cpi _ | .inp _ | .outp _ => 2
    | _ => 1

theorem mov (dst src : Operand8) : Statement (.mov dst src) := rfl
theorem mvi (dst : Operand8) (d8 : Byte) : Statement (.mvi dst d8) := rfl
theorem lxi (rp : RegPair) (d16 : Word) : Statement (.lxi rp d16) := rfl
theorem lda (addr : Word) : Statement (.lda addr) := rfl
theorem sta (addr : Word) : Statement (.sta addr) := rfl
theorem lhld (addr : Word) : Statement (.lhld addr) := rfl
theorem shld (addr : Word) : Statement (.shld addr) := rfl
theorem ldax (rp : IndexPair) : Statement (.ldax rp) := rfl
theorem stax (rp : IndexPair) : Statement (.stax rp) := rfl
theorem xchg : Statement (.xchg) := rfl
theorem add (src : Operand8) : Statement (.add src) := rfl
theorem adi (d8 : Byte) : Statement (.adi d8) := rfl
theorem adc (src : Operand8) : Statement (.adc src) := rfl
theorem aci (d8 : Byte) : Statement (.aci d8) := rfl
theorem sub (src : Operand8) : Statement (.sub src) := rfl
theorem sui (d8 : Byte) : Statement (.sui d8) := rfl
theorem sbb (src : Operand8) : Statement (.sbb src) := rfl
theorem sbi (d8 : Byte) : Statement (.sbi d8) := rfl
theorem inr (dst : Operand8) : Statement (.inr dst) := rfl
theorem dcr (dst : Operand8) : Statement (.dcr dst) := rfl
theorem inx (rp : RegPair) : Statement (.inx rp) := rfl
theorem dcx (rp : RegPair) : Statement (.dcx rp) := rfl
theorem dad (rp : RegPair) : Statement (.dad rp) := rfl
theorem daa : Statement (.daa) := rfl
theorem ana (src : Operand8) : Statement (.ana src) := rfl
theorem ani (d8 : Byte) : Statement (.ani d8) := rfl
theorem xra (src : Operand8) : Statement (.xra src) := rfl
theorem xri (d8 : Byte) : Statement (.xri d8) := rfl
theorem ora (src : Operand8) : Statement (.ora src) := rfl
theorem ori (d8 : Byte) : Statement (.ori d8) := rfl
theorem cmp (src : Operand8) : Statement (.cmp src) := rfl
theorem cpi (d8 : Byte) : Statement (.cpi d8) := rfl
theorem rlc : Statement (.rlc) := rfl
theorem rrc : Statement (.rrc) := rfl
theorem ral : Statement (.ral) := rfl
theorem rar : Statement (.rar) := rfl
theorem cma : Statement (.cma) := rfl
theorem cmc : Statement (.cmc) := rfl
theorem stc : Statement (.stc) := rfl
theorem jmp (addr : Word) : Statement (.jmp addr) := rfl
theorem jnz (addr : Word) : Statement (.jnz addr) := rfl
theorem jz (addr : Word) : Statement (.jz addr) := rfl
theorem jnc (addr : Word) : Statement (.jnc addr) := rfl
theorem jc (addr : Word) : Statement (.jc addr) := rfl
theorem jpo (addr : Word) : Statement (.jpo addr) := rfl
theorem jpe (addr : Word) : Statement (.jpe addr) := rfl
theorem jp (addr : Word) : Statement (.jp addr) := rfl
theorem jm (addr : Word) : Statement (.jm addr) := rfl
theorem call (addr : Word) : Statement (.call addr) := rfl
theorem cnz (addr : Word) : Statement (.cnz addr) := rfl
theorem cz (addr : Word) : Statement (.cz addr) := rfl
theorem cnc (addr : Word) : Statement (.cnc addr) := rfl
theorem cc (addr : Word) : Statement (.cc addr) := rfl
theorem cpo (addr : Word) : Statement (.cpo addr) := rfl
theorem cpe (addr : Word) : Statement (.cpe addr) := rfl
theorem cp (addr : Word) : Statement (.cp addr) := rfl
theorem cm (addr : Word) : Statement (.cm addr) := rfl
theorem ret : Statement (.ret) := rfl
theorem rnz : Statement (.rnz) := rfl
theorem rz : Statement (.rz) := rfl
theorem rnc : Statement (.rnc) := rfl
theorem rc : Statement (.rc) := rfl
theorem rpo : Statement (.rpo) := rfl
theorem rpe : Statement (.rpe) := rfl
theorem rp : Statement (.rp) := rfl
theorem rm : Statement (.rm) := rfl
theorem rst (n : Fin 8) : Statement (.rst n) := rfl
theorem pchl : Statement (.pchl) := rfl
theorem push (rp : StackPair) : Statement (.push rp) := rfl
theorem pop (rp : StackPair) : Statement (.pop rp) := rfl
theorem xthl : Statement (.xthl) := rfl
theorem sphl : Statement (.sphl) := rfl
theorem inp (port : Byte) : Statement (.inp port) := rfl
theorem outp (port : Byte) : Statement (.outp port) := rfl
theorem ei : Statement (.ei) := rfl
theorem di : Statement (.di) := rfl
theorem hlt : Statement (.hlt) := rfl
theorem nop : Statement (.nop) := rfl
theorem illegal (op : Byte) : Statement (.illegal op) := rfl

end Sys2Proof.Laws.EncodedLength
end

