-- ==== Sys2Proof/Laws/Step.lean ====
section
/-! SUPPORT. What a tick can do, stated once, and how fetch and the decoder agree. -/

namespace Sys2Proof.Machine

/-- Decoding the three bytes at PC gives the fetched instruction (`30_encoding.md` R70). -/
theorem State.decode_at_pc (s : State) :
    ∃ rest, decode [s.busRead s.pc, s.busRead (s.pc + 1), s.busRead (s.pc + 2)] = .instr s.fetch rest := by
  simp only [decode, State.fetch]
  cases decodeOpcode (s.busRead s.pc) <;> exact ⟨_, rfl⟩

/-- A tick of a machine that executes is exec of the fetched instruction. -/
theorem step_of_executes {s : State} (h : s.Executes) : step s = exec s.fetch s := by
  simp [step, State.tickAction, h.run, h.noInterrupt]

/-- A tick of a machine that is not Running does nothing (`60_exceptions.md` R225). -/
theorem step_of_not_running {s : State} (h : s.run ≠ .running) : step s = .next s := by
  cases hr : s.run <;> simp_all [step, State.tickAction]

/-- A tick that accepts an interrupt is the acceptance (`60_exceptions.md` R229). -/
theorem step_of_acceptable {s : State} {n : Fin 8} (hr : s.run = .running) (h : s.acceptable = some n) :
    step s = .next (s.acceptInterrupt n) := by
  simp [step, State.tickAction, hr, h]

/-- Everything a tick can do (`60_exceptions.md` R224). -/
theorem step_cases {s : State} {o : Host.Outcome State Fault Refusal} (h : step s = o) :
    (s.run ≠ .running ∧ o = .next s) ∨
    (∃ n, s.run = .running ∧ s.acceptable = some n ∧ o = .next (s.acceptInterrupt n)) ∨
    (s.Executes ∧ o = exec s.fetch s) := by
  subst h
  by_cases hr : s.run = .running
  · cases ha : s.acceptable with
    | none => exact .inr (.inr ⟨⟨hr, ha⟩, step_of_executes ⟨hr, ha⟩⟩)
    | some n => exact .inr (.inl ⟨n, hr, rfl, step_of_acceptable hr ha⟩)
  · exact .inl ⟨hr, step_of_not_running hr⟩

/-- A property that every tick keeps holds after any number of ticks. -/
theorem run_induction {P : State → State → Prop} (hrefl : ∀ s, P s s)
    (hstep : ∀ s t u, step s = .next t → P t u → P s u) :
    ∀ (n : Nat) (s u : State), Sys2Proof.core.run n s = .next u → P s u := by
  intro n
  induction n with
  | zero =>
    intro s u h
    cases h
    exact hrefl s
  | succ n ih =>
    intro s u h
    cases hs : step s with
    | next t =>
      have h' : Sys2Proof.core.run n t = .next u := by
        have hs' : Sys2Proof.core.step s = .next t := hs
        simpa [Host.Core.run, hs'] using h
      exact hstep s t u hs (ih t u h')
    | fault r =>
      have hs' : Sys2Proof.core.step s = .fault r := hs
      simp [Host.Core.run, hs'] at h
    | refused r =>
      have hs' : Sys2Proof.core.step s = .refused r := hs
      simp [Host.Core.run, hs'] at h

/-- The state that withFetchWord gives is about to execute, when INTE or the extension does not matter: no request is
pending. -/
theorem State.withFetchWord_executes (s : State) (nbits w : Nat) : (s.withFetchWord nbits w).Executes where
  run := rfl
  noInterrupt := by
    unfold State.withFetchWord State.placeForFetch State.acceptable
    cases s.intExt <;> simp [State.poke]

end Sys2Proof.Machine
end

