-- ==== Sys2Proof/Tests/Slice0.lean ====
section
/-! SUPPORT. The model's own tests: well-formedness, decoding from the spec's patterns, one-step tests whose expected values
are those of `95_test_vectors.md` (or derived by hand from the rule named), and a witness for the hypotheses of each
statement. -/

namespace Sys2Proof.Tests

open Sys2Proof.Machine

/-! ### Helpers -/

/-- The next state of an outcome. -/
def nextOf : Host.Outcome State Fault Refusal → Option State
  | .next t => some t
  | .fault _ => none
  | .refused _ => none

/-- Bytes placed from an offset of PC up, whatever the region. -/
def placeAtPc (s : State) (k : Nat) : List Byte → State
  | [] => s
  | v :: rest => placeAtPc (s.poke (s.pc + BitVec.ofNat 16 k) v) (k + 1) rest

/-- The state after one tick that finds the bytes at PC. -/
def after (bytes : List Byte) (s : State) : Option State := nextOf (step (placeAtPc s 0 bytes))

/-- The start state of the spec's vectors: everything not listed is 0. -/
def blank : State := State.reset

/-- The start state of the interrupt vectors. -/
def withExt (x : IntExt) (s : State) : State := { s with intExt := some x }

/-! ### Well-formedness -/

/-- MOV M,M is no instruction: its slot is HLT (R101 to R103, R211). -/
theorem test_wf_refuses_mov_m_m : Instr.wf (.mov .m .m) = false := by decide

/-- An assigned byte is not illegal (R77). -/
theorem test_wf_refuses_illegal_nop : Instr.wf (.illegal 0x00) = false := by decide

theorem test_wf_accepts_mov : Instr.wf (.mov .m (.reg .a)) = true := by decide

theorem test_wf_accepts_illegal_set : Instr.wf (.illegal 0x08) = true := by decide

/-! ### Decoding -/

/-- R71, R76: `01dddsss`, `00ddd110`, `00pp0001`, the direct and indirect rows, 0xEB. -/
theorem test_decode_data_transfer :
    decode [0b01111000] = .instr (.mov (.reg .a) (.reg .b)) [] ∧
    decode [0b01100110] = .instr (.mov (.reg .h) .m) [] ∧
    decode [0b01110111] = .instr (.mov .m (.reg .a)) [] ∧
    decode [0b00011110, 0xFF] = .instr (.mvi (.reg .e) 0xFF) [] ∧
    decode [0b00110110, 0x99] = .instr (.mvi .m 0x99) [] ∧
    decode [0b00110001, 0xEF, 0xBE] = .instr (.lxi .sp 0xBEEF) [] ∧
    decode [0b00000001, 0x34, 0x12] = .instr (.lxi .bc 0x1234) [] ∧
    decode [0x3A, 0x34, 0x12] = .instr (.lda 0x1234) [] ∧
    decode [0x32, 0x34, 0x12] = .instr (.sta 0x1234) [] ∧
    decode [0x2A, 0x34, 0x12] = .instr (.lhld 0x1234) [] ∧
    decode [0x22, 0x34, 0x12] = .instr (.shld 0x1234) [] ∧
    decode [0b00001010] = .instr (.ldax .bc) [] ∧
    decode [0b00010010] = .instr (.stax .de) [] ∧
    decode [0xEB] = .instr .xchg [] := by decide

/-- R71, R76: `10aaasss` with aaa 000 to 011, `11aaa110`, `00ddd10d`, `00pp0011`, `00pp1011`, `00pp1001`, 0x27. -/
theorem test_decode_arithmetic :
    decode [0b10000000] = .instr (.add (.reg .b)) [] ∧
    decode [0b10001001] = .instr (.adc (.reg .c)) [] ∧
    decode [0b10010110] = .instr (.sub .m) [] ∧
    decode [0b10011101] = .instr (.sbb (.reg .l)) [] ∧
    decode [0b11000110, 0x42] = .instr (.adi 0x42) [] ∧
    decode [0b11001110, 0x42] = .instr (.aci 0x42) [] ∧
    decode [0b11010110, 0x42] = .instr (.sui 0x42) [] ∧
    decode [0b11011110, 0x42] = .instr (.sbi 0x42) [] ∧
    decode [0b00111100] = .instr (.inr (.reg .a)) [] ∧
    decode [0b00110101] = .instr (.dcr .m) [] ∧
    decode [0b00110011] = .instr (.inx .sp) [] ∧
    decode [0b00011011] = .instr (.dcx .de) [] ∧
    decode [0b00101001] = .instr (.dad .hl) [] ∧
    decode [0x27] = .instr .daa [] := by decide

/-- R71, R76: `10aaasss` with aaa 100 to 111, `11aaa110`, the accumulator row `00yyy111`. -/
theorem test_decode_logical :
    decode [0b10100001] = .instr (.ana (.reg .c)) [] ∧
    decode [0b10101110] = .instr (.xra .m) [] ∧
    decode [0b10110111] = .instr (.ora (.reg .a)) [] ∧
    decode [0b10111011] = .instr (.cmp (.reg .e)) [] ∧
    decode [0b11100110, 0x0F] = .instr (.ani 0x0F) [] ∧
    decode [0b11101110, 0x0F] = .instr (.xri 0x0F) [] ∧
    decode [0b11110110, 0x0F] = .instr (.ori 0x0F) [] ∧
    decode [0b11111110, 0x0F] = .instr (.cpi 0x0F) [] ∧
    decode [0x07] = .instr .rlc [] ∧
    decode [0x0F] = .instr .rrc [] ∧
    decode [0x17] = .instr .ral [] ∧
    decode [0x1F] = .instr .rar [] ∧
    decode [0x2F] = .instr .cma [] ∧
    decode [0x3F] = .instr .cmc [] ∧
    decode [0x37] = .instr .stc [] := by decide

/-- R71, R74, R76: 0xC3 and `11ccc010`, 0xE9. -/
theorem test_decode_jump :
    decode [0xC3, 0x34, 0x12] = .instr (.jmp 0x1234) [] ∧
    decode [0b11000010, 0x34, 0x12] = .instr (.jnz 0x1234) [] ∧
    decode [0b11001010, 0x34, 0x12] = .instr (.jz 0x1234) [] ∧
    decode [0b11010010, 0x34, 0x12] = .instr (.jnc 0x1234) [] ∧
    decode [0b11011010, 0x34, 0x12] = .instr (.jc 0x1234) [] ∧
    decode [0b11100010, 0x34, 0x12] = .instr (.jpo 0x1234) [] ∧
    decode [0b11101010, 0x34, 0x12] = .instr (.jpe 0x1234) [] ∧
    decode [0b11110010, 0x34, 0x12] = .instr (.jp 0x1234) [] ∧
    decode [0b11111010, 0x34, 0x12] = .instr (.jm 0x1234) [] ∧
    decode [0xE9] = .instr .pchl [] := by decide

/-- R71, R74, R76: 0xCD, `11ccc100`, 0xC9, `11ccc000`, `11nnn111`. -/
theorem test_decode_call_and_return :
    decode [0xCD, 0x34, 0x12] = .instr (.call 0x1234) [] ∧
    decode [0b11000100, 0x34, 0x12] = .instr (.cnz 0x1234) [] ∧
    decode [0b11001100, 0x34, 0x12] = .instr (.cz 0x1234) [] ∧
    decode [0b11010100, 0x34, 0x12] = .instr (.cnc 0x1234) [] ∧
    decode [0b11011100, 0x34, 0x12] = .instr (.cc 0x1234) [] ∧
    decode [0b11100100, 0x34, 0x12] = .instr (.cpo 0x1234) [] ∧
    decode [0b11101100, 0x34, 0x12] = .instr (.cpe 0x1234) [] ∧
    decode [0b11110100, 0x34, 0x12] = .instr (.cp 0x1234) [] ∧
    decode [0b11111100, 0x34, 0x12] = .instr (.cm 0x1234) [] ∧
    decode [0xC9] = .instr .ret [] ∧
    decode [0b11000000] = .instr .rnz [] ∧
    decode [0b11001000] = .instr .rz [] ∧
    decode [0b11010000] = .instr .rnc [] ∧
    decode [0b11011000] = .instr .rc [] ∧
    decode [0b11100000] = .instr .rpo [] ∧
    decode [0b11101000] = .instr .rpe [] ∧
    decode [0b11110000] = .instr .rp [] ∧
    decode [0b11111000] = .instr .rm [] ∧
    decode [0b11010111] = .instr (.rst 2) [] := by decide

/-- R71, R76: `11pp0101`, `11pp0001`, the fixed bytes, the illegal set of R77. -/
theorem test_decode_stack_io_control :
    decode [0b11010101] = .instr (.push .de) [] ∧
    decode [0b11110101] = .instr (.push .psw) [] ∧
    decode [0b11100001] = .instr (.pop .hl) [] ∧
    decode [0xE3] = .instr .xthl [] ∧
    decode [0xF9] = .instr .sphl [] ∧
    decode [0xDB, 0x05] = .instr (.inp 0x05) [] ∧
    decode [0xD3, 0x10] = .instr (.outp 0x10) [] ∧
    decode [0xFB] = .instr .ei [] ∧
    decode [0xF3] = .instr .di [] ∧
    decode [0x76] = .instr .hlt [] ∧
    decode [0x00] = .instr .nop [] ∧
    decode [0x08] = .instr (.illegal 0x08) [] ∧
    decode [0x10] = .instr (.illegal 0x10) [] ∧
    decode [0x18] = .instr (.illegal 0x18) [] ∧
    decode [0x20] = .instr (.illegal 0x20) [] ∧
    decode [0x28] = .instr (.illegal 0x28) [] ∧
    decode [0x30] = .instr (.illegal 0x30) [] ∧
    decode [0x38] = .instr (.illegal 0x38) [] ∧
    decode [0xCB] = .instr (.illegal 0xCB) [] ∧
    decode [0xD9] = .instr (.illegal 0xD9) [] ∧
    decode [0xDD] = .instr (.illegal 0xDD) [] ∧
    decode [0xED] = .instr (.illegal 0xED) [] ∧
    decode [0xFD] = .instr (.illegal 0xFD) [] := by decide

/-- Bytes are missing: rejected by name. -/
theorem test_decode_rejects :
    decode [] = .reject .noOpcode ∧ decode [0x3E] = .reject (.truncated 0x3E) ∧
    decode [0xC3, 0x00] = .reject (.truncated 0xC3) := by decide

/-- What follows the instruction is left over (R71). -/
theorem test_decode_rest : decode [0x78, 0x01, 0x02] = .instr (.mov (.reg .a) (.reg .b)) [0x01, 0x02] := by decide

/-- Opcode-table words: the second byte is bits 15..8, the third bits 23..16, absent bytes are 0. -/
theorem test_decodeTableWord :
    decodeTableWord 8 0x78 = some (.mov (.reg .a) (.reg .b)) ∧ decodeTableWord 16 0x993E = some (.mvi (.reg .a) 0x99) ∧
    decodeTableWord 24 0x1234C3 = some (.jmp 0x1234) ∧ decodeTableWord 8 0xC3 = some (.jmp 0x0000) ∧
    decodeTableWord 8 0xCB = some (.illegal 0xCB) := by decide

/-- The encoder writes the immediate low byte first (R75). -/
theorem test_encode : encode (.jmp 0x1234) = [0xC3, 0x34, 0x12] ∧ encode (.mov .m (.reg .a)) = [0x77] := by decide

/-! ### One step -/

/-- V3, R102. -/
theorem test_mov_from_memory :
    (after [0x66] (({ blank with h := 0x09, l := 0x00, pc := 0x0100 } : State).poke 0x0900 0x0A)).map
        (fun t => (t.h, t.pc)) =
      some (0x0A, 0x0101) := by decide

/-- V5, R103, R43. -/
theorem test_mov_to_rom :
    (after [0x77] { blank with h := 0x07, l := 0xFF, a := 0x5A, pc := 0x0100 }).map
        (fun t => (t.pc, t.busRead 0x07FF)) =
      some (0x0101, 0x00) := by decide

/-- V6, R104. -/
theorem test_mvi_register :
    (after [0x1E, 0xFF] { blank with pc := 0x0100, flags := Flags.ofByte 0xD7 }).map
        (fun t => (t.e, t.pc, t.flags.toByte)) =
      some (0xFF, 0x0102, 0xD7) := by decide

/-- V7, R105. -/
theorem test_mvi_memory :
    (after [0x36, 0x99] { blank with h := 0xFF, l := 0xFF, pc := 0x0100 }).map
        (fun t => (t.pc, t.busRead 0xFFFF)) =
      some (0x0102, 0x99) := by decide

/-- V9, R106. -/
theorem test_lxi_sp :
    (after [0x31, 0xEF, 0xBE] { blank with pc := 0x0100 }).map
        (fun t => (t.sp, t.pc)) =
      some (0xBEEF, 0x0103) := by decide

/-- V18, R106, R13. -/
theorem test_lxi_wraps_fetch :
    (after [0x21, 0x34] (({ blank with pc := 0xFFFE } : State).poke 0x0000 0x12)).map
        (fun t => (t.h, t.l, t.pc)) =
      some (0x12, 0x34, 0x0001) := by decide

/-- V11, R107. -/
theorem test_lda :
    (after [0x3A, 0xFF, 0xFF] (({ blank with pc := 0x0100 } : State).poke 0xFFFF 0x7E)).map
        (fun t => (t.a, t.pc)) =
      some (0x7E, 0x0103) := by decide

/-- V16, R112. -/
theorem test_stax :
    (after [0x12] { blank with d := 0x0B, e := 0x00, a := 0x3C, pc := 0x0100 }).map
        (fun t => (t.pc, t.busRead 0x0B00)) =
      some (0x0101, 0x3C) := by decide

/-- Hand-derived from R108. -/
theorem test_sta :
    (after [0x32, 0x00, 0x09] { blank with a := 0xEE, pc := 0x0100 }).map
        (fun t => (t.busRead 0x0900, t.pc)) =
      some (0xEE, 0x0103) := by decide

/-- V13, R109, R45. -/
theorem test_lhld_wraps :
    (after [0x2A, 0xFF, 0xFF] ((({ blank with pc := 0x0100 } : State).poke 0xFFFF 0x34).poke 0x0000 0x12)).map
        (fun t => (t.h, t.l, t.pc)) =
      some (0x12, 0x34, 0x0103) := by decide

/-- V14, R110, R45. -/
theorem test_shld_straddles_rom :
    (after [0x22, 0xFF, 0x07] { blank with h := 0xAB, l := 0xCD, pc := 0x0100 }).map
        (fun t => (t.pc, t.busRead 0x0800)) =
      some (0x0103, 0xAB) := by decide

/-- V15, R111. -/
theorem test_ldax :
    (after [0x0A] (({ blank with b := 0x09, c := 0x20, pc := 0x0100 } : State).poke 0x0920 0x77)).map
        (fun t => (t.a, t.pc)) =
      some (0x77, 0x0101) := by decide

/-- V17, R113. -/
theorem test_xchg :
    (after [0xEB] { blank with d := 0x11, e := 0x22, h := 0x33, l := 0x44, pc := 0x0100 }).map
        (fun t => (t.d, t.e, t.h, t.l, t.pc)) =
      some (0x33, 0x44, 0x11, 0x22, 0x0101) := by decide

/-- V20, R122. -/
theorem test_add_register :
    (after [0x80] { blank with a := 0x6C, b := 0x2E, pc := 0x0100 }).map
        (fun t => (t.a, t.pc, t.flags.toByte)) =
      some (0x9A, 0x0101, 0x96) := by decide

/-- V22, R123. -/
theorem test_add_memory :
    (after [0x86] (({ blank with a := 0xFF, h := 0x09, l := 0x00, pc := 0x0100 } : State).poke 0x0900 0x01)).map
        (fun t => (t.a, t.pc, t.flags.toByte)) =
      some (0x00, 0x0101, 0x57) := by decide

/-- V24, R124. -/
theorem test_adi :
    (after [0xC6, 0x42] { blank with a := 0x14, pc := 0x0100 }).map
        (fun t => (t.a, t.pc, t.flags.toByte)) =
      some (0x56, 0x0102, 0x06) := by decide

/-- V26, R125. -/
theorem test_adc_register :
    (after [0x89] { blank with a := 0x42, c := 0x3D, pc := 0x0100, flags := Flags.ofByte 0x03 }).map
        (fun t => (t.a, t.pc, t.flags.toByte)) =
      some (0x80, 0x0101, 0x92) := by decide

/-- V28, R126. -/
theorem test_adc_memory :
    (after [0x8E] { blank with a := 0x0F, h := 0x09, l := 0x00, pc := 0x0100, flags := Flags.ofByte 0x03 }).map
        (fun t => (t.a, t.pc, t.flags.toByte)) =
      some (0x10, 0x0101, 0x12) := by decide

/-- V29, R127. -/
theorem test_aci :
    (after [0xCE, 0x00] { blank with a := 0xFF, pc := 0x0100, flags := Flags.ofByte 0x03 }).map
        (fun t => (t.a, t.pc, t.flags.toByte)) =
      some (0x00, 0x0102, 0x57) := by decide

/-- V31, R128. -/
theorem test_sub_register :
    (after [0x97] { blank with a := 0xC7, pc := 0x0100, flags := Flags.ofByte 0x03 }).map
        (fun t => (t.a, t.pc, t.flags.toByte)) =
      some (0x00, 0x0101, 0x56) := by decide

/-- V32, R129. -/
theorem test_sub_memory :
    (after [0x96] (({ blank with a := 0x00, h := 0x09, l := 0x00, pc := 0x0100 } : State).poke 0x0900 0x01)).map
        (fun t => (t.a, t.pc, t.flags.toByte)) =
      some (0xFF, 0x0101, 0x87) := by decide

/-- V33, R130. -/
theorem test_sui :
    (after [0xD6, 0x01] { blank with a := 0x10, pc := 0x0100 }).map
        (fun t => (t.a, t.pc, t.flags.toByte)) =
      some (0x0F, 0x0102, 0x06) := by decide

/-- V36, R131. -/
theorem test_sbb_register :
    (after [0x98] { blank with a := 0x00, b := 0xFF, pc := 0x0100, flags := Flags.ofByte 0x03 }).map
        (fun t => (t.pc, t.flags.toByte)) =
      some (0x0101, 0x47) := by decide

/-- V38, R132. -/
theorem test_sbb_memory :
    (after [0x9E] (({ blank with a := 0x10, h := 0x09, l := 0x00, pc := 0x0100, flags := Flags.ofByte 0x03 } : State).poke 0x0900 0x0F)).map
        (fun t => (t.a, t.pc, t.flags.toByte)) =
      some (0x00, 0x0101, 0x46) := by decide

/-- V39, R133. -/
theorem test_sbi :
    (after [0xDE, 0x01] { blank with a := 0x00, pc := 0x0100, flags := Flags.ofByte 0x03 }).map
        (fun t => (t.a, t.pc, t.flags.toByte)) =
      some (0xFE, 0x0102, 0x83) := by decide

/-- V40, R134. -/
theorem test_inr_keeps_carry :
    (after [0x3C] { blank with a := 0xFF, pc := 0x0100, flags := Flags.ofByte 0x03 }).map
        (fun t => (t.a, t.pc, t.flags.toByte)) =
      some (0x00, 0x0101, 0x57) := by decide

/-- V43, R135, R43. -/
theorem test_inr_rom_drops_write :
    (after [0x34] (({ blank with h := 0x00, l := 0x10, pc := 0x0100 } : State).poke 0x0010 0xFF)).map
        (fun t => (t.pc, t.busRead 0x0010, t.flags.toByte)) =
      some (0x0101, 0xFF, 0x56) := by decide

/-- V45, R136. -/
theorem test_dcr_register :
    (after [0x0D] { blank with c := 0x00, pc := 0x0100 }).map
        (fun t => (t.c, t.pc, t.flags.toByte)) =
      some (0xFF, 0x0101, 0x86) := by decide

/-- V47, R137. -/
theorem test_dcr_memory :
    (after [0x35] (({ blank with h := 0x09, l := 0x00, pc := 0x0100 } : State).poke 0x0900 0x80)).map
        (fun t => (t.pc, t.busRead 0x0900, t.flags.toByte)) =
      some (0x0101, 0x7F, 0x02) := by decide

/-- V48, R138. -/
theorem test_inx_no_flag :
    (after [0x23] { blank with h := 0xFF, l := 0xFF, pc := 0x0100, flags := Flags.ofByte 0x02 }).map
        (fun t => (t.h, t.l, t.pc, t.flags.toByte)) =
      some (0x00, 0x00, 0x0101, 0x02) := by decide

/-- V50, R139. -/
theorem test_dcx :
    (after [0x0B] { blank with b := 0x00, c := 0x00, pc := 0x0100 }).map
        (fun t => (t.b, t.c, t.pc, t.flags.toByte)) =
      some (0xFF, 0xFF, 0x0101, 0x02) := by decide

/-- V52, R140. -/
theorem test_dad_clears_carry :
    (after [0x09] { blank with b := 0x33, c := 0x9F, h := 0xA1, l := 0x7B, pc := 0x0100, flags := Flags.ofByte 0x03 }).map
        (fun t => (t.h, t.l, t.pc, t.flags.toByte)) =
      some (0xD5, 0x1A, 0x0101, 0x02) := by decide

/-- V54, R140. -/
theorem test_dad_sp :
    (after [0x39] { blank with h := 0x00, l := 0x01, sp := 0xFFFF, pc := 0x0100, flags := Flags.ofByte 0x02 }).map
        (fun t => (t.l, t.pc, t.flags.toByte)) =
      some (0x00, 0x0101, 0x03) := by decide

/-- V56, R141. -/
theorem test_daa :
    (after [0x27] { blank with a := 0x9B, pc := 0x0100 }).map
        (fun t => (t.a, t.pc, t.flags.toByte)) =
      some (0x01, 0x0101, 0x13) := by decide

/-- V61, R141. -/
theorem test_daa_all_set :
    (after [0x27] { blank with a := 0xFF, pc := 0x0100, flags := Flags.ofByte 0x13 }).map
        (fun t => (t.a, t.pc, t.flags.toByte)) =
      some (0x65, 0x0101, 0x17) := by decide

/-- V71, R151, R150. -/
theorem test_ana_aux_carry :
    (after [0xA0] { blank with a := 0xF0, b := 0x0F, pc := 0x0100 }).map
        (fun t => (t.a, t.pc, t.flags.toByte)) =
      some (0x00, 0x0101, 0x56) := by decide

/-- V73, R152. -/
theorem test_ana_memory :
    (after [0xA6] (({ blank with a := 0xFF, h := 0x09, l := 0x00, pc := 0x0100 } : State).poke 0x0900 0x80)).map
        (fun t => (t.a, t.pc, t.flags.toByte)) =
      some (0x80, 0x0101, 0x92) := by decide

/-- V74, R153. -/
theorem test_ani :
    (after [0xE6, 0x0F] { blank with a := 0x3A, pc := 0x0100, flags := Flags.ofByte 0x03 }).map
        (fun t => (t.a, t.pc, t.flags.toByte)) =
      some (0x0A, 0x0102, 0x16) := by decide

/-- V77, R154. -/
theorem test_xra :
    (after [0xA8] { blank with a := 0xFF, b := 0x0F, pc := 0x0100, flags := Flags.ofByte 0x13 }).map
        (fun t => (t.a, t.pc, t.flags.toByte)) =
      some (0xF0, 0x0101, 0x86) := by decide

/-- V79, R156. -/
theorem test_xri :
    (after [0xEE, 0x81] { blank with a := 0x3B, pc := 0x0100, flags := Flags.ofByte 0x03 }).map
        (fun t => (t.a, t.pc, t.flags.toByte)) =
      some (0xBA, 0x0102, 0x82) := by decide

/-- V80, R157. -/
theorem test_ora :
    (after [0xB1] { blank with a := 0x33, c := 0x0F, pc := 0x0100, flags := Flags.ofByte 0x13 }).map
        (fun t => (t.a, t.pc, t.flags.toByte)) =
      some (0x3F, 0x0101, 0x06) := by decide

/-- V83, R159. -/
theorem test_ori :
    (after [0xF6, 0x0F] { blank with a := 0xB5, pc := 0x0100, flags := Flags.ofByte 0x03 }).map
        (fun t => (t.a, t.pc, t.flags.toByte)) =
      some (0xBF, 0x0102, 0x82) := by decide

/-- V86, R160. -/
theorem test_cmp_unsigned :
    (after [0xBB] { blank with a := 0xE5, e := 0x05, pc := 0x0100 }).map
        (fun t => (t.pc, t.flags.toByte)) =
      some (0x0101, 0x92) := by decide

/-- V88, R161. -/
theorem test_cmp_memory :
    (after [0xBE] (({ blank with a := 0x05, h := 0x09, l := 0x00, pc := 0x0100 } : State).poke 0x0900 0x05)).map
        (fun t => (t.pc, t.flags.toByte)) =
      some (0x0101, 0x56) := by decide

/-- V89, R162. -/
theorem test_cpi :
    (after [0xFE, 0x40] { blank with a := 0x3F, pc := 0x0100 }).map
        (fun t => (t.pc, t.flags.toByte)) =
      some (0x0102, 0x97) := by decide

/-- V91, R163. -/
theorem test_rlc_keeps_flags :
    (after [0x07] { blank with a := 0xF2, pc := 0x0100, flags := Flags.ofByte 0x56 }).map
        (fun t => (t.a, t.pc, t.flags.toByte)) =
      some (0xE5, 0x0101, 0x57) := by decide

/-- V93, R164. -/
theorem test_rrc :
    (after [0x0F] { blank with a := 0x01, pc := 0x0100 }).map
        (fun t => (t.a, t.pc, t.flags.toByte)) =
      some (0x80, 0x0101, 0x03) := by decide

/-- V94, R165. -/
theorem test_ral :
    (after [0x17] { blank with a := 0xB5, pc := 0x0100 }).map
        (fun t => (t.a, t.pc, t.flags.toByte)) =
      some (0x6A, 0x0101, 0x03) := by decide

/-- V96, R166. -/
theorem test_rar :
    (after [0x1F] { blank with a := 0x6A, pc := 0x0100, flags := Flags.ofByte 0x03 }).map
        (fun t => (t.a, t.pc, t.flags.toByte)) =
      some (0xB5, 0x0101, 0x02) := by decide

/-- V98, R167. -/
theorem test_cma_keeps_flags :
    (after [0x2F] { blank with a := 0x51, pc := 0x0100, flags := Flags.ofByte 0xD7 }).map
        (fun t => (t.a, t.pc, t.flags.toByte)) =
      some (0xAE, 0x0101, 0xD7) := by decide

/-- V99, R168. -/
theorem test_cmc :
    (after [0x3F] { blank with pc := 0x0100, flags := Flags.ofByte 0x03 }).map
        (fun t => (t.pc, t.flags.toByte)) =
      some (0x0101, 0x02) := by decide

/-- V100, R169. -/
theorem test_stc :
    (after [0x37] { blank with pc := 0x0100 }).map
        (fun t => (t.pc, t.flags.toByte)) =
      some (0x0101, 0x03) := by decide

/-- V110, R181. -/
theorem test_jmp :
    (after [0xC3, 0x00, 0x08] { blank with pc := 0x0000 }).map
        (fun t => t.pc) =
      some 0x0800 := by decide

/-- V112, R182. -/
theorem test_jz_taken :
    (after [0xCA, 0x00, 0x09] { blank with pc := 0x0810, flags := Flags.ofByte 0x42 }).map
        (fun t => t.pc) =
      some 0x0900 := by decide

/-- V113, R182. -/
theorem test_jz_not_taken :
    (after [0xCA, 0x00, 0x09] { blank with pc := 0x0810, flags := Flags.ofByte 0x02 }).map
        (fun t => t.pc) =
      some 0x0813 := by decide

/-- V114, R182. -/
theorem test_jpe_taken :
    (after [0xEA, 0x34, 0x12] { blank with pc := 0x0100, flags := Flags.ofByte 0x06 }).map
        (fun t => t.pc) =
      some 0x1234 := by decide

/-- V115, R182. -/
theorem test_jm_not_taken :
    (after [0xFA, 0x34, 0x12] { blank with pc := 0x0100 }).map
        (fun t => t.pc) =
      some 0x0103 := by decide

/-- V116, R182. -/
theorem test_jnc_not_taken :
    (after [0xD2, 0x34, 0x12] { blank with pc := 0x0100, flags := Flags.ofByte 0x03 }).map
        (fun t => t.pc) =
      some 0x0103 := by decide

/-- V118, R183, R43. -/
theorem test_call_wraps_into_rom :
    (after [0xCD, 0x34, 0x12] { blank with pc := 0x0800, sp := 0x0001 }).map
        (fun t => (t.sp, t.pc, t.busRead 0xFFFF, t.busRead 0x0000)) =
      some (0xFFFF, 0x1234, 0x03, 0x00) := by decide

/-- V120, R184. -/
theorem test_cc_not_taken :
    (after [0xDC, 0x00, 0x09] { blank with pc := 0x0800, sp := 0x0C00 }).map
        (fun t => t.pc) =
      some 0x0803 := by decide

/-- V121, R184. -/
theorem test_cc_taken :
    (after [0xDC, 0x00, 0x09] { blank with pc := 0x0800, sp := 0x0C00, flags := Flags.ofByte 0x03 }).map
        (fun t => (t.sp, t.pc, t.busRead 0x0BFE, t.busRead 0x0BFF)) =
      some (0x0BFE, 0x0900, 0x03, 0x08) := by decide

/-- V122, R184. -/
theorem test_cp_taken :
    (after [0xF4, 0x00, 0x09] { blank with pc := 0x0800, sp := 0x0C00 }).map
        (fun t => (t.sp, t.pc, t.busRead 0x0BFE, t.busRead 0x0BFF)) =
      some (0x0BFE, 0x0900, 0x03, 0x08) := by decide

/-- V124, R185. -/
theorem test_ret_wraps :
    (after [0xC9] ((({ blank with sp := 0xFFFF, pc := 0x0100 } : State).poke 0xFFFF 0x21).poke 0x0000 0x43)).map
        (fun t => (t.sp, t.pc)) =
      some (0x0001, 0x4321) := by decide

/-- V125, R186. -/
theorem test_rnz_taken :
    (after [0xC0] ((({ blank with sp := 0x0BFE, pc := 0x0100 } : State).poke 0x0BFE 0x03).poke 0x0BFF 0x08)).map
        (fun t => (t.sp, t.pc)) =
      some (0x0C00, 0x0803) := by decide

/-- V126, R186. -/
theorem test_rnz_not_taken :
    (after [0xC0] ((({ blank with sp := 0x0BFE, pc := 0x0100, flags := Flags.ofByte 0x42 } : State).poke 0x0BFE 0x03).poke 0x0BFF 0x08)).map
        (fun t => t.pc) =
      some 0x0101 := by decide

/-- V127, R187. -/
theorem test_rst_two :
    (after [0xD7] { blank with pc := 0x0850, sp := 0x0C00 }).map
        (fun t => (t.sp, t.pc, t.busRead 0x0BFE, t.busRead 0x0BFF)) =
      some (0x0BFE, 0x0010, 0x51, 0x08) := by decide

/-- V128, R187. -/
theorem test_rst_seven_wraps :
    (after [0xFF] { blank with pc := 0xFFFF, sp := 0x0C00 }).map
        (fun t => (t.sp, t.pc, t.busRead 0x0BFE, t.busRead 0x0BFF)) =
      some (0x0BFE, 0x0038, 0x00, 0x00) := by decide

/-- V129, R188. -/
theorem test_pchl :
    (after [0xE9] { blank with h := 0x41, l := 0x3E, pc := 0x0100 }).map
        (fun t => t.pc) =
      some 0x413E := by decide

/-- V140, R201. -/
theorem test_push_pair :
    (after [0xD5] { blank with d := 0x8F, e := 0x9D, sp := 0x3A2C, pc := 0x0100 }).map
        (fun t => (t.sp, t.pc, t.busRead 0x3A2A, t.busRead 0x3A2B)) =
      some (0x3A2A, 0x0101, 0x9D, 0x8F) := by decide

/-- V141, R202. -/
theorem test_push_psw :
    (after [0xF5] { blank with a := 0x1F, sp := 0x502A, pc := 0x0100, flags := Flags.ofByte 0x47 }).map
        (fun t => (t.sp, t.pc, t.busRead 0x5028, t.busRead 0x5029, t.flags.toByte)) =
      some (0x5028, 0x0101, 0x47, 0x1F, 0x47) := by decide

/-- V145, R203. -/
theorem test_pop_pair :
    (after [0xE1] ((({ blank with sp := 0x1239, pc := 0x0100 } : State).poke 0x1239 0x3D).poke 0x123A 0x93)).map
        (fun t => (t.h, t.l, t.sp, t.pc)) =
      some (0x93, 0x3D, 0x123B, 0x0101) := by decide

/-- V147, R204, R15. -/
theorem test_pop_psw :
    (after [0xF1] ((({ blank with sp := 0x2C00, pc := 0x0100 } : State).poke 0x2C00 0xFF).poke 0x2C01 0x01)).map
        (fun t => (t.a, t.sp, t.pc, t.flags.toByte)) =
      some (0x01, 0x2C02, 0x0101, 0xD7) := by decide

/-- V149, R205. -/
theorem test_xthl :
    (after [0xE3] ((({ blank with sp := 0x10AD, h := 0x0B, l := 0x3C, pc := 0x0100 } : State).poke 0x10AD 0xF0).poke 0x10AE 0x0D)).map
        (fun t => (t.h, t.l, t.pc, t.busRead 0x10AD, t.busRead 0x10AE)) =
      some (0x0D, 0xF0, 0x0101, 0x3C, 0x0B) := by decide

/-- V150, R205, R43. -/
theorem test_xthl_in_rom :
    (after [0xE3] ((({ blank with sp := 0x0010, h := 0x0B, l := 0x3C, pc := 0x0100 } : State).poke 0x0010 0xF0).poke 0x0011 0x0D)).map
        (fun t => (t.h, t.l, t.pc, t.busRead 0x0010)) =
      some (0x0D, 0xF0, 0x0101, 0xF0) := by decide

/-- V151, R206. -/
theorem test_sphl :
    (after [0xF9] { blank with h := 0x50, l := 0x6C, pc := 0x0100 }).map
        (fun t => (t.sp, t.pc)) =
      some (0x506C, 0x0101) := by decide

/-- V152, R207. -/
theorem test_in_latch :
    (after [0xDB, 0x05] (({ blank with pc := 0x0100 } : State).setInputLatch 0x05 0xA7)).map
        (fun t => (t.a, t.pc, t.flags.toByte)) =
      some (0xA7, 0x0102, 0x02) := by decide

/-- V153, R207, R52. -/
theorem test_in_reads_pin :
    (after [0xDB, 0x07] ((({ blank with pc := 0x0100 } : State).setInputLatch 0x07 0x11).setOutputLatch 0x07 0x3F)).map
        (fun t => (t.a, t.pc)) =
      some (0x11, 0x0102) := by decide

/-- V155, R208, R241. -/
theorem test_out_digit :
    (after [0xD3, 0x06] (({ blank with a := 0x3F, pc := 0x0100 } : State).setOutputLatch 0x07 0x01)).map
        (fun t => (t.pc, t.outputLatch 0x06, t.readDigit 0)) =
      some (0x0102, 0x3F, 0x3F) := by decide

/-- V156, R208, R241. -/
theorem test_out_two_digits :
    (after [0xD3, 0x07] (({ blank with a := 0x12, pc := 0x0100 } : State).setOutputLatch 0x06 0x77)).map
        (fun t => (t.pc, t.outputLatch 0x07, t.readDigit 1, t.readDigit 4)) =
      some (0x0102, 0x12, 0x77, 0x77) := by decide

/-- V159, R209. -/
theorem test_ei :
    (after [0xFB] { blank with pc := 0x0100 }).map
        (fun t => (t.pc, t.inte)) =
      some (0x0101, true) := by decide

/-- V160, R210. -/
theorem test_di :
    (after [0xF3] { blank with inte := true, pc := 0x0100 }).map
        (fun t => (t.pc, t.inte)) =
      some (0x0101, false) := by decide

/-- V161, R211. -/
theorem test_hlt :
    (after [0x76] { blank with pc := 0x0830 }).map
        (fun t => (t.pc, t.run)) =
      some (0x0831, .halted) := by decide

/-- V163, R212. -/
theorem test_nop_wraps :
    (after [0x00] { blank with pc := 0xFFFF }).map
        (fun t => t.pc) =
      some 0x0000 := by decide

/-- Hand-derived from R182 and R74. -/
theorem test_jnz :
    (after [0xC2, 0x34, 0x12] { blank with flags := Flags.ofByte 0x97, pc := 0x0100, sp := 0x0C00 }).map
        (fun t => (t.pc, t.sp)) =
      some (0x1234, 0x0C00) := by decide

/-- Hand-derived from R182 and R74. -/
theorem test_jc :
    (after [0xDA, 0x34, 0x12] { blank with flags := Flags.ofByte 0x03, pc := 0x0100, sp := 0x0C00 }).map
        (fun t => (t.pc, t.sp)) =
      some (0x1234, 0x0C00) := by decide

/-- Hand-derived from R182 and R74. -/
theorem test_jpo :
    (after [0xE2, 0x34, 0x12] { blank with flags := Flags.ofByte 0xD3, pc := 0x0100, sp := 0x0C00 }).map
        (fun t => (t.pc, t.sp)) =
      some (0x1234, 0x0C00) := by decide

/-- Hand-derived from R182 and R74. -/
theorem test_jp :
    (after [0xF2, 0x34, 0x12] { blank with flags := Flags.ofByte 0x57, pc := 0x0100, sp := 0x0C00 }).map
        (fun t => (t.pc, t.sp)) =
      some (0x1234, 0x0C00) := by decide

/-- Hand-derived from R182 and R74. -/
theorem test_jnc_taken :
    (after [0xD2, 0x34, 0x12] { blank with flags := Flags.ofByte 0xD6, pc := 0x0100, sp := 0x0C00 }).map
        (fun t => (t.pc, t.sp)) =
      some (0x1234, 0x0C00) := by decide

/-- Hand-derived from R182 and R74. -/
theorem test_jm_taken :
    (after [0xFA, 0x34, 0x12] { blank with flags := Flags.ofByte 0x82, pc := 0x0100, sp := 0x0C00 }).map
        (fun t => (t.pc, t.sp)) =
      some (0x1234, 0x0C00) := by decide

/-- Hand-derived from R184 and R74. -/
theorem test_cnz :
    (after [0xC4, 0x34, 0x12] { blank with flags := Flags.ofByte 0x97, pc := 0x0100, sp := 0x0C00 }).map
        (fun t => (t.pc, t.sp, t.busRead 0x0BFF, t.busRead 0x0BFE)) =
      some (0x1234, 0x0BFE, 0x01, 0x03) := by decide

/-- Hand-derived from R184 and R74. -/
theorem test_cz :
    (after [0xCC, 0x34, 0x12] { blank with flags := Flags.ofByte 0x42, pc := 0x0100, sp := 0x0C00 }).map
        (fun t => (t.pc, t.sp, t.busRead 0x0BFF, t.busRead 0x0BFE)) =
      some (0x1234, 0x0BFE, 0x01, 0x03) := by decide

/-- Hand-derived from R184 and R74. -/
theorem test_cnc :
    (after [0xD4, 0x34, 0x12] { blank with flags := Flags.ofByte 0xD6, pc := 0x0100, sp := 0x0C00 }).map
        (fun t => (t.pc, t.sp, t.busRead 0x0BFF, t.busRead 0x0BFE)) =
      some (0x1234, 0x0BFE, 0x01, 0x03) := by decide

/-- Hand-derived from R184 and R74. -/
theorem test_cpo :
    (after [0xE4, 0x34, 0x12] { blank with flags := Flags.ofByte 0xD3, pc := 0x0100, sp := 0x0C00 }).map
        (fun t => (t.pc, t.sp, t.busRead 0x0BFF, t.busRead 0x0BFE)) =
      some (0x1234, 0x0BFE, 0x01, 0x03) := by decide

/-- Hand-derived from R184 and R74. -/
theorem test_cpe :
    (after [0xEC, 0x34, 0x12] { blank with flags := Flags.ofByte 0x06, pc := 0x0100, sp := 0x0C00 }).map
        (fun t => (t.pc, t.sp, t.busRead 0x0BFF, t.busRead 0x0BFE)) =
      some (0x1234, 0x0BFE, 0x01, 0x03) := by decide

/-- Hand-derived from R184 and R74. -/
theorem test_cm :
    (after [0xFC, 0x34, 0x12] { blank with flags := Flags.ofByte 0x82, pc := 0x0100, sp := 0x0C00 }).map
        (fun t => (t.pc, t.sp, t.busRead 0x0BFF, t.busRead 0x0BFE)) =
      some (0x1234, 0x0BFE, 0x01, 0x03) := by decide

/-- Hand-derived from R186 and R74. -/
theorem test_rz :
    (after [0xC8] ((({ blank with flags := Flags.ofByte 0x42, pc := 0x0100, sp := 0x0C00 } : State).poke 0x0C00 0x03).poke 0x0C01 0x08)).map
        (fun t => (t.pc, t.sp)) =
      some (0x0803, 0x0C02) := by decide

/-- Hand-derived from R186 and R74. -/
theorem test_rnc :
    (after [0xD0] ((({ blank with flags := Flags.ofByte 0xD6, pc := 0x0100, sp := 0x0C00 } : State).poke 0x0C00 0x03).poke 0x0C01 0x08)).map
        (fun t => (t.pc, t.sp)) =
      some (0x0803, 0x0C02) := by decide

/-- Hand-derived from R186 and R74. -/
theorem test_rc :
    (after [0xD8] ((({ blank with flags := Flags.ofByte 0x03, pc := 0x0100, sp := 0x0C00 } : State).poke 0x0C00 0x03).poke 0x0C01 0x08)).map
        (fun t => (t.pc, t.sp)) =
      some (0x0803, 0x0C02) := by decide

/-- Hand-derived from R186 and R74. -/
theorem test_rpo :
    (after [0xE0] ((({ blank with flags := Flags.ofByte 0xD3, pc := 0x0100, sp := 0x0C00 } : State).poke 0x0C00 0x03).poke 0x0C01 0x08)).map
        (fun t => (t.pc, t.sp)) =
      some (0x0803, 0x0C02) := by decide

/-- Hand-derived from R186 and R74. -/
theorem test_rpe :
    (after [0xE8] ((({ blank with flags := Flags.ofByte 0x06, pc := 0x0100, sp := 0x0C00 } : State).poke 0x0C00 0x03).poke 0x0C01 0x08)).map
        (fun t => (t.pc, t.sp)) =
      some (0x0803, 0x0C02) := by decide

/-- Hand-derived from R186 and R74. -/
theorem test_rp :
    (after [0xF0] ((({ blank with flags := Flags.ofByte 0x57, pc := 0x0100, sp := 0x0C00 } : State).poke 0x0C00 0x03).poke 0x0C01 0x08)).map
        (fun t => (t.pc, t.sp)) =
      some (0x0803, 0x0C02) := by decide

/-- Hand-derived from R186 and R74. -/
theorem test_rm :
    (after [0xF8] ((({ blank with flags := Flags.ofByte 0x82, pc := 0x0100, sp := 0x0C00 } : State).poke 0x0C00 0x03).poke 0x0C01 0x08)).map
        (fun t => (t.pc, t.sp)) =
      some (0x0803, 0x0C02) := by decide

/-- V177, R220, R221. -/
theorem test_illegal :
    (after [0xCB, 0x34, 0x12] { blank with a := 0x11, pc := 0x0100 }).map
        (fun t => (t.run, t.pc, t.a)) =
      some (.halted, 0x0100, 0x11) := by decide

/-! ### The tick and its result -/

/-- V170, R220, R221: the one report of the illegal byte. -/
theorem test_illegal_report :
    (placeAtPc { blank with pc := 0x0100 } 0 [0x08, 0x34, 0x12]).tickResult = .illegalOpcode 0x0100 0x08 := by decide

/-- V183, R225. -/
theorem test_stopped_tick :
    after [0x3C] { blank with run := .stopped, pc := 0x0100 } =
      some (placeAtPc { blank with run := .stopped, pc := 0x0100 } 0 [0x3C]) := by decide

/-- I1, R229: the interrupt is the whole tick. -/
theorem test_interrupt_accepted :
    (after [0x3C] (withExt { pending := some 2, eiShadow := false } { blank with pc := 0x0105, sp := 0x0C00, inte := true })).map
        (fun t => (t.busRead 0x0BFF, t.busRead 0x0BFE, t.sp, t.pc, t.inte, t.a)) =
      some (0x01, 0x05, 0x0BFE, 0x0010, false, 0x00) := by decide

/-- I2, R229: with INTE 0 the request waits. -/
theorem test_interrupt_waits :
    (after [0x3C] (withExt { pending := some 2, eiShadow := false } { blank with pc := 0x0105, sp := 0x0C00 })).map
        (fun t => (t.a, t.pc, t.flags.toByte, t.intExt)) =
      some (0x01, 0x0106, 0x02, some { pending := some 2, eiShadow := false }) := by decide

/-- I3, its second tick, R230: the EI shadow lets RET execute. -/
theorem test_shadow_lets_ret_execute :
    (after [0xC9] (((withExt { pending := some 7, eiShadow := true }
        { blank with pc := 0x0101, sp := 0x0C00, inte := true }).poke 0x0C00 0x34).poke 0x0C01 0x12)).map
        (fun t => (t.pc, t.sp, t.intExt)) =
      some (0x1234, 0x0C02, some { pending := some 7, eiShadow := false }) := by decide

/-- I4, R231: no interrupt while Halted. -/
theorem test_interrupt_does_not_end_halt :
    (after [0x00] (withExt { pending := some 1, eiShadow := false } { blank with run := .halted, inte := true })).map
        (fun t => (t.run, t.intExt)) =
      some (.halted, some { pending := some 1, eiShadow := false }) := by decide

/-! ### Host operations -/

/-- H1, R242. -/
theorem test_writeDigit :
    [(0 : Fin 6), 1, 2, 3, 4, 5].map ({ blank with digits :=
        { d0 := 0x11, d1 := 0x22, d2 := 0x33, d3 := 0x44, d4 := 0x55, d5 := 0x66 } }.writeDigit 2 0x7F).getDisplayDigit =
      [0x11, 0x22, 0x7F, 0x44, 0x55, 0x66] := by decide

/-- H3, R245, R246: a second press replaces the key, a second release is harmless. -/
theorem test_key_scan :
    ((blank.pressKey 0x03).pressKey 0x0B).scanPort = Config.keyPattern 0x0B ∧
    ((blank.pressKey 0x03).releaseKey.releaseKey).scanPort = Config.keyIdle := ⟨rfl, rfl⟩

/-- H5a, R273: the bytes beyond a short image keep their value. -/
theorem test_loadImage :
    ((blank.poke 0x0003 0xA5).loadImage [0xC3, 0x00, 0x08]).map
        (fun t => (t.busRead 0x0000, t.busRead 0x0001, t.busRead 0x0002, t.busRead 0x0003)) =
      some (0xC3, 0x00, 0x08, 0xA5) := by decide

/-- H7, R254, R271: restart resets the CPU and keeps the rest. -/
theorem test_restart :
    State.restart (({ blank with a := 0x12, sp := 0x0BFE, pc := 0x0456, inte := true, run := .halted, key := some 0x05 }
        : State).poke 0x0900 0x77) = ({ blank with key := some 0x05 } : State).poke 0x0900 0x77 := by decide

/-- I5, R228: a later request replaces an earlier one. -/
theorem test_request_replaced :
    ((((withExt { pending := none, eiShadow := false } blank).requestInterrupt 3).requestInterrupt 5).intExt) =
      some { pending := some 5, eiShadow := false } := by decide

/-- R227, R262: the two refusals of the host interface. -/
theorem test_host_refusals :
    (match Session.hostStep (.live State.reset) (.requestInterrupt 2) with | .refused .noInterruptInput => true | _ => false) =
      true ∧
    (match Session.hostStep (.absent false) .tick with | .refused .sessionFreed => true | _ => false) = true := by decide

/-- R228, R251: create on a machine with the interrupt input, live or freed, keeps the input and clears request and shadow. -/
theorem test_create_keeps_interrupt_input :
    (Session.run (.live (withExt { pending := some 3, eiShadow := true } blank)) [.create]) =
      .next (.live (withExt { pending := none, eiShadow := false } State.reset), [.done]) ∧
    (Session.run (.live (withExt { pending := some 3, eiShadow := true } blank)) [.free, .create, .requestInterrupt 5]) =
      .next (.live (withExt { pending := some 5, eiShadow := false } State.reset), [.done, .done, .done]) := ⟨rfl, rfl⟩

/-- R44: with a window of each kind, a read in the keyboard window is the scanner's, a write in the display window stores no
byte, and the addresses beside a window stay RAM. -/
theorem test_windows_forward :
    windowIn [⟨0x9000, 1, .keyboard⟩, ⟨0x9001, 6, .display⟩] 0x9000 = some ⟨0x9000, 1, .keyboard⟩ ∧
    windowIn [⟨0x9000, 1, .keyboard⟩, ⟨0x9001, 6, .display⟩] 0x9006 = some ⟨0x9001, 6, .display⟩ ∧
    regionIn [⟨0x9000, 1, .keyboard⟩, ⟨0x9001, 6, .display⟩] 0x9007 = .ram ∧
    regionIn [⟨0x9000, 1, .keyboard⟩, ⟨0x9001, 6, .display⟩] 0x07FF = .rom := by decide

/-! ### Running an opcode-table word from reset -/

theorem test_withFetchWord_runs :
    nextOf (step (State.reset.withFetchWord 16 0x993E)) =
      nextOf (exec (.mvi (.reg .a) 0x99) (State.reset.withFetchWord 16 0x993E)) := by decide

theorem test_withFetchWord_three_bytes :
    (nextOf (step (State.reset.withFetchWord 24 0x1234C3))).map (fun t => t.pc) = some 0x1234 := by decide

/-! ### Witnesses: for each statement with hypotheses, a state and operands that meet them all -/

/-- A running machine with its stack and PC in RAM. -/
def ready : State := { blank with pc := 0x0900, sp := 0x0C00, h := 0x09, l := 0x01, a := 0x3C, b := 0x08 }

theorem witness_DecodeEncodeRoundTrip : Instr.wf (.mov .m (.reg .a)) = true := by decide

theorem witness_DecodedBytesReencode : decode [0x77, 0x00] = .instr (.mov .m (.reg .a)) [0x00] := by decide

theorem witness_FirstByteDecides : decode [0xCB, 0x34] = .instr (.illegal 0xCB) [0x34] := by decide

theorem witness_Executes : ready.Executes := ⟨rfl, rfl⟩

theorem witness_TickExecutesDecodedInstruction :
    ready.Executes ∧
    decode [ready.busRead ready.pc, ready.busRead (ready.pc + 1), ready.busRead (ready.pc + 2)] =
      .instr .nop [0x00, 0x00] := ⟨⟨rfl, rfl⟩, by decide⟩

theorem witness_NotRunningTicksDoNothing_halted : ({ ready with run := .halted } : State).run ≠ .running := by decide

theorem witness_NotRunningTicksDoNothing_stopped : ({ ready with run := .stopped } : State).run ≠ .running := by decide

/-- The first clause's halted case. -/
theorem witness_OnlyHltAndIllegalHalt :
    (placeAtPc ready 0 [0x76]).run = .running ∧
    step (placeAtPc ready 0 [0x76]) =
      .next { placeAtPc ready 0 [0x76] with run := .halted, pc := 0x0901 } := ⟨rfl, rfl⟩

/-- The case in which it stays Running. -/
theorem witness_OnlyHltAndIllegalHalt_running : ready.run = .running ∧ step ready = .next { ready with pc := 0x0901 } :=
  ⟨rfl, rfl⟩

theorem witness_IllegalByteHalts :
    (placeAtPc ready 0 [0xFD]).Executes ∧
    (placeAtPc ready 0 [0xFD]).busRead (placeAtPc ready 0 [0xFD]).pc ∈
      ([0x08, 0x10, 0x18, 0x20, 0x28, 0x30, 0x38, 0xCB, 0xD9, 0xDD, 0xED, 0xFD] : List Byte) :=
  ⟨⟨rfl, rfl⟩, by decide⟩

theorem witness_ReportIsExactlyTheIllegalFetch :
    (placeAtPc ready 0 [0x08]).Executes ∧
    Config.illegalSet.contains ((placeAtPc ready 0 [0x08]).busRead 0x0900) = true := ⟨⟨rfl, rfl⟩, by decide⟩

theorem witness_StepPair_not_sp : RegPair.hl ≠ .sp := by decide

theorem witness_DecimalAdjustAddsBcd :
    (99 : Nat) < 100 ∧ (1 : Nat) < 100 ∧ ({ ready with a := 0x99 } : State).a.toNat = 16 * (99 / 10) + 99 % 10 := by decide

/-- The zero flag both ways, for the taken and the not-taken clause of every conditional form; the other flags alike. -/
theorem witness_conditions_false :
    ready.flags.z = false ∧ ready.flags.cy = false ∧ ready.flags.p = false ∧ ready.flags.s = false := by decide

theorem witness_conditions_true :
    (Flags.ofByte 0xD7).z = true ∧ (Flags.ofByte 0xD7).cy = true ∧ (Flags.ofByte 0xD7).p = true ∧
    (Flags.ofByte 0xD7).s = true := by decide

/-- CALL then RET with the stack at the lowest place where both bytes are in RAM. -/
theorem witness_CallThenReturn :
    regionOf (({ ready with sp := 0x0802 } : State).sp - 1) = .ram ∧
    regionOf (({ ready with sp := 0x0802 } : State).sp - 2) = .ram := by decide

theorem witness_PushThenPopRestores : regionOf (ready.sp - 1) = .ram ∧ regionOf (ready.sp - 2) = .ram := by decide

/-- POP PSW then PUSH PSW with the flag byte on the last byte of memory. -/
theorem witness_PushThenPopRestores_flag_byte : regionOf ({ ready with sp := 0xFFFF } : State).sp = .ram := by decide

theorem witness_InputFromPort_latch : (0x05 : Byte) ≠ 0x06 := by decide

theorem witness_HaltInstruction : (placeAtPc ready 0 [0x76]).fetch = .hlt := by decide

theorem witness_FlagTable : exec .stc ready = .next { ready with pc := 0x0901, flags := Flags.ofByte 0x03 } := rfl

theorem witness_TicksNeverChangeRom :
    Sys2Proof.core.run 1 ready = .next { ready with pc := 0x0901 } ∧ (0x07FF : Word).toNat < 0x0800 := ⟨rfl, by decide⟩

theorem witness_TickKeepsCanonicalForm : ready.Inv ∧ step ready = .next { ready with pc := 0x0901 } :=
  ⟨⟨rfl, rfl, rfl⟩, rfl⟩

theorem witness_TicksNeverChangeHostInputs : Sys2Proof.core.run 2 ready = .next { ready with pc := 0x0902 } := rfl

/-- OUT 0x07 with digit 0 selected changes a latch and a digit. -/
theorem witness_OnlyOutDrivesPortsAndDisplay :
    (after [0xD3, 0x07] ({ ready with a := 0x01 }.setOutputLatch 0x06 0x3F)).map
        (fun t => decide (t.pout ≠ ({ ready with a := 0x01 }.setOutputLatch 0x06 0x3F).pout ∧ t.digits ≠ ready.digits)) =
      some true := by decide

theorem witness_InteIsUnobservable : ready.intExt = none := rfl

theorem witness_KeyReachesOnlyIn : ready.fetch ≠ .inp 0x06 := by decide

theorem witness_InterruptAcceptance :
    (withExt { pending := some 7, eiShadow := false } { ready with inte := true }).run = .running ∧
    (withExt { pending := some 7, eiShadow := false } { ready with inte := true }).inte = true ∧
    (withExt { pending := some 7, eiShadow := false } { ready with inte := true }).intExt =
      some { pending := some 7, eiShadow := false } := ⟨rfl, rfl, rfl⟩

theorem witness_DisableInterrupts : ready.intExt = none := rfl

theorem witness_EiShadowAfterEveryInstruction : exec .ei ready = .next { ready with pc := 0x0901, inte := true } := rfl

/-- A request that waits because INTE is 0. -/
theorem witness_RequestStaysPending_inte :
    (withExt { pending := some 7, eiShadow := false } ready).inte = false ∧
    step (withExt { pending := some 7, eiShadow := false } ready) =
      .next (withExt { pending := some 7, eiShadow := false } { ready with pc := 0x0901 }) := ⟨rfl, rfl⟩

/-- A request that waits because of the EI shadow. -/
theorem witness_RequestStaysPending_shadow :
    step (withExt { pending := some 7, eiShadow := true } { ready with inte := true }) =
      .next (withExt { pending := some 7, eiShadow := false } { ready with inte := true, pc := 0x0901 }) := rfl

/-- A request that waits because the machine is Halted. -/
theorem witness_RequestStaysPending_halted :
    (withExt { pending := some 7, eiShadow := false } { ready with inte := true, run := .halted }).run ≠ .running ∧
    step (withExt { pending := some 7, eiShadow := false } { ready with inte := true, run := .halted }) =
      .next (withExt { pending := some 7, eiShadow := false } { ready with inte := true, run := .halted }) :=
  ⟨by decide, rfl⟩

/-- The first RAM address, the last ROM address, and another address: the clauses meet at 0x0800. -/
theorem witness_ReadAfterWrite :
    (0x0800 : Word).toNat ≥ 0x0800 ∧ (0x07FF : Word).toNat < 0x0800 ∧ (0x07FF : Word) ≠ 0x0800 := by decide

theorem witness_StoreSeenByNextFetch :
    wordOf ready.h ready.l = ready.pc + 1 ∧ regionOf (ready.pc + 1) = .ram ∧
    decode [ready.a] = .instr (.inr (.reg .a)) [] := by decide

/-- The longest image that is loaded. -/
theorem witness_LoadImage_loaded : (List.replicate 2048 (0x00 : Byte)).length ≤ 2048 := by
  rw [List.length_replicate]

/-- The shortest image that is refused. -/
theorem witness_LoadImage_refused : (List.replicate 2049 (0x00 : Byte)).length > 2048 := by
  rw [List.length_replicate]; decide

theorem witness_SessionsStayCanonical :
    State.reset.Inv ∧
    Session.run (.live State.reset) [.tick, .stop] =
      .next (.live { State.reset with pc := 0x0001, run := .stopped }, [.ticked .ok, .done]) := ⟨⟨rfl, rfl, rfl⟩, rfl⟩

end Sys2Proof.Tests
end

section
/-! PROOFS. Data transfer (`40_data_transfer.md`): the decoding of its rows, the frames of the pair operations, and the
obligations O11 to O15. -/

namespace Sys2Proof

open Sys2Proof.Machine

/-! ### Decoding -/

/-- A three-byte row whose immediate is written as the two bytes of its number (`30_encoding.md` R75). -/
theorem decode_three_ofNat {op : Byte} {build : Word → Instr} (h : decodeOpcode op = .three build) (w : Word) :
    decode [op, BitVec.ofNat 8 w.toNat, BitVec.ofNat 8 (w.toNat / 256)] = .instr (build w) [] := by
  rw [← lowByte_eq, ← highByte_eq]
  exact decode_three h w []

theorem decode_mov_reg_reg (dst src : Reg) :
    decode [BitVec.ofNat 8 (0x40 + 8 * operandCode (.reg dst) + operandCode (.reg src))] =
      .instr (.mov (.reg dst) (.reg src)) [] := by
  cases dst <;> cases src <;> rfl

theorem decode_mov_reg_m (dst : Reg) :
    decode [BitVec.ofNat 8 (0x46 + 8 * operandCode (.reg dst))] = .instr (.mov (.reg dst) .m) [] := by
  cases dst <;> rfl

theorem decode_mov_m_reg (src : Reg) :
    decode [BitVec.ofNat 8 (0x70 + operandCode (.reg src))] = .instr (.mov .m (.reg src)) [] := by
  cases src <;> rfl

theorem decode_mvi_reg (dst : Reg) (d8 : Byte) :
    decode [BitVec.ofNat 8 (0x06 + 8 * operandCode (.reg dst)), d8] = .instr (.mvi (.reg dst) d8) [] := by
  cases dst <;> rfl

theorem decode_lxi (rp : RegPair) (low high : Byte) :
    decode [BitVec.ofNat 8 (0x01 + 16 * pairCode rp), low, high] = .instr (.lxi rp (imm16 low high)) [] := by
  cases rp <;> rfl

end Sys2Proof

namespace Sys2Proof.Machine

/-! ### Loading a pair -/

/-- Loading a pair touches no register outside it. -/
theorem regsKept_setPair_retire (s : State) (rp : RegPair) (v n : Word) :
    RegsKept (pairRegs rp) s ((s.setPair rp v).retire n) := by
  intro r hr
  rw [State.getReg_retire]
  revert hr
  cases rp <;> cases r <;> simp [pairRegs, State.setPair, State.getReg]

theorem memKept_setPair_retire (s : State) (rp : RegPair) (v n : Word) :
    MemKept s ((s.setPair rp v).retire n) := fun addr => by simp

theorem systemKept_setPair_retire (s : State) (rp : RegPair) (v n : Word) :
    SystemKept s ((s.setPair rp v).retire n) := .retire _ (by constructor <;> simp)

/-! ### Storing two bytes -/

/-- Stores to two distinct addresses may be listed in either order. -/
theorem MemAfter.swap {a₁ a₂ : Word} {v₁ v₂ : Byte} {s t : State} (hne : a₁ ≠ a₂)
    (h : MemAfter [(a₁, v₁), (a₂, v₂)] s t) : MemAfter [(a₂, v₂), (a₁, v₁)] s t := by
  intro addr
  rw [h addr]
  congr 2
  simp only [List.lookup_cons, List.lookup_nil]
  by_cases h₁ : addr = a₁
  · subst h₁
    simp only [beq_self_eq_true, beq_eq_false_iff_ne.mpr hne]
  · simp only [beq_eq_false_iff_ne.mpr h₁]

/-- The next address modulo 2^16 (`20_memory.md` R45). -/
theorem ofNat_toNat_add_one_mod (addr : Word) : BitVec.ofNat 16 ((addr.toNat + 1) % 65536) = addr + 1 := by
  apply BitVec.eq_of_toNat_eq
  simp

/-- Everything that storing a word, low byte at the lower address, and retiring does (`20_memory.md` R45). -/
theorem storesBytes_memWrite16_retire (s : State) (addr v n : Word) :
    StoresBytes [(addr, lowByte v), (addr + 1, highByte v)] n s ((s.memWrite16 addr v).retire n) where
  mem := by
    have hne : addr + 1 ≠ addr := by bv_omega
    exact (State.memAfter_busWrite_busWrite s addr (addr + 1) (lowByte v) (highByte v)).swap hne
  regs := fun _ _ => by simp
  sp := by simp
  flags := by simp
  pc := by simp
  system := .retire _ (by constructor <;> simp)

/-! ### XCHG -/

/-- The register whose value XCHG moves into a register (`40_data_transfer.md` R113). -/
def xchgSource : Reg → Reg
  | .h => .d
  | .d => .h
  | .l => .e
  | .e => .l
  | r => r

theorem xchgSource_xchgSource (r : Reg) : xchgSource (xchgSource r) = r := by
  cases r <;> rfl

theorem xchgSource_of_notMem {r : Reg} (h : r ∉ [Reg.h, .l, .d, .e]) : xchgSource r = r := by
  revert h
  cases r <;> simp [xchgSource]

theorem exec_xchg (s : State) : exec .xchg s = .next (((s.setHl s.de).setDe s.hl).retire 1) := rfl

/-- XCHG permutes the registers. -/
theorem getReg_of_exec_xchg {s t : State} (h : exec .xchg s = .next t) (r : Reg) :
    t.getReg r = s.getReg (xchgSource r) := by
  cases h
  cases r <;> simp [State.getReg, xchgSource, State.de, State.hl]

end Sys2Proof.Machine

namespace Sys2Proof

open Sys2Proof.Machine

/-! ### The obligations -/

/-- Settles O11: each of these meanings is `setReg` of the loaded byte, then `retire`. -/
theorem loadRegister : Obligations.LoadRegister := by
  intro dst src d8 addr s
  refine ⟨⟨decode_mov_reg_reg dst src, ?movReg⟩, ⟨decode_mov_reg_m dst, ?movM⟩, ⟨decode_mvi_reg dst d8, ?mvi⟩,
    ⟨decode_three_ofNat rfl addr, ?lda⟩, ⟨rfl, ?ldaxBc⟩, ⟨rfl, ?ldaxDe⟩, rfl⟩
  case movReg => exact ⟨_, rfl, loadsRegister_setReg_retire s dst (s.getReg src) 1⟩
  case movM => exact ⟨_, rfl, loadsRegister_setReg_retire s dst (s.busRead s.hl) 1⟩
  case mvi => exact ⟨_, rfl, loadsRegister_setReg_retire s dst d8 2⟩
  case lda => exact ⟨_, rfl, loadsRegister_setReg_retire s .a (s.busRead addr) 3⟩
  case ldaxBc => exact ⟨_, rfl, loadsRegister_setReg_retire s .a (s.busRead s.bc) 1⟩
  case ldaxDe => exact ⟨_, rfl, loadsRegister_setReg_retire s .a (s.busRead s.de) 1⟩

/-- Settles O12: each of these meanings is one bus write, then `retire`. -/
theorem storeOneByte : Obligations.StoreOneByte := by
  intro r d8 addr s
  refine ⟨⟨decode_mov_m_reg r, ?mov⟩, ⟨rfl, ?mvi⟩, ⟨decode_three_ofNat rfl addr, ?sta⟩, ⟨rfl, ?staxBc⟩,
    ⟨rfl, ?staxDe⟩, rfl⟩
  case mov => exact ⟨_, rfl, storesBytes_busWrite_retire s s.hl (s.getReg r) 1⟩
  case mvi => exact ⟨_, rfl, storesBytes_busWrite_retire s s.hl d8 2⟩
  case sta => exact ⟨_, rfl, storesBytes_busWrite_retire s addr s.a 3⟩
  case staxBc => exact ⟨_, rfl, storesBytes_busWrite_retire s s.bc s.a 1⟩
  case staxDe => exact ⟨_, rfl, storesBytes_busWrite_retire s s.de s.a 1⟩

/-- Settles O13: the pair takes the two halves of the assembled immediate, by cases on the pair. -/
theorem loadPairImmediate : Obligations.LoadPairImmediate := by
  intro rp low high s
  refine ⟨_, .lxi rp (imm16 low high), decode_lxi rp low high, rfl, rfl, ?pair,
    regsKept_setPair_retire s rp _ 3, by simp, memKept_setPair_retire s rp _ 3, by simp,
    systemKept_setPair_retire s rp _ 3⟩
  cases rp with
  | bc => exact ⟨lowByte_wordOf high low, highByte_wordOf high low, rfl⟩
  | de => exact ⟨lowByte_wordOf high low, highByte_wordOf high low, rfl⟩
  | hl => exact ⟨lowByte_wordOf high low, highByte_wordOf high low, rfl⟩
  | sp => exact toNat_wordOf high low

/-- Settles O14: LHLD loads the pair HL from a read of two bytes, SHLD is a store of two bytes. -/
theorem hlDirect : Obligations.HlDirect := by
  intro addr s
  rw [ofNat_toNat_add_one_mod]
  refine ⟨⟨decode_three_ofNat rfl addr, ?lhld⟩, ⟨decode_three_ofNat rfl addr, ?shld⟩⟩
  case lhld =>
    exact ⟨_, rfl, lowByte_wordOf _ _, highByte_wordOf _ _, regsKept_setPair_retire s .hl _ 3, rfl, rfl,
      memKept_setPair_retire s .hl _ 3, rfl, systemKept_setPair_retire s .hl _ 3⟩
  case shld =>
    have hstore := storesBytes_memWrite16_retire s addr s.hl 3
    rw [State.hl, lowByte_wordOf, highByte_wordOf] at hstore
    exact ⟨_, rfl, hstore⟩

/-- Settles O15: XCHG permutes the registers by an involution. -/
theorem exchangeHlDe : Obligations.ExchangeHlDe := by
  intro s
  have hs := exec_xchg s
  have ht := exec_xchg (((s.setHl s.de).setDe s.hl).retire 1)
  have hreg := getReg_of_exec_xchg hs
  refine ⟨rfl, _, hs, hreg .h, hreg .d, hreg .l, hreg .e, ?moved, rfl, rfl, fun _ => rfl, rfl,
    .retire _ (by constructor <;> rfl), _, ht, ?restored⟩
  case moved =>
    intro r hr
    rw [hreg, xchgSource_of_notMem hr]
  case restored =>
    intro r _
    rw [getReg_of_exec_xchg ht, hreg, xchgSource_xchgSource]

end Sys2Proof
end


section
/-! PROOFS. Arithmetic (`41_arithmetic.md`): the decoding of its rows, what an ALU result in an operand and the flags
changes and keeps, and the obligations O16, O19, O21, O22. -/

namespace Sys2Proof

open Sys2Proof.Machine

/-! ### Decoding -/

theorem decode_add (src : Operand8) : decode [BitVec.ofNat 8 (0x80 + operandCode src)] = .instr (.add src) [] := by
  cases src with
  | reg r => cases r <;> rfl
  | m => rfl

theorem decode_adc (src : Operand8) : decode [BitVec.ofNat 8 (0x88 + operandCode src)] = .instr (.adc src) [] := by
  cases src with
  | reg r => cases r <;> rfl
  | m => rfl

theorem decode_inr_reg (r : Reg) :
    decode [BitVec.ofNat 8 (0x04 + 8 * operandCode (.reg r))] = .instr (.inr (.reg r)) [] := by
  cases r <;> rfl

theorem decode_inx (rp : RegPair) : decode [BitVec.ofNat 8 (0x03 + 16 * pairCode rp)] = .instr (.inx rp) [] := by
  cases rp <;> rfl

theorem decode_dcx (rp : RegPair) : decode [BitVec.ofNat 8 (0x0B + 16 * pairCode rp)] = .instr (.dcx rp) [] := by
  cases rp <;> rfl

theorem decode_dad (rp : RegPair) : decode [BitVec.ofNat 8 (0x09 + 16 * pairCode rp)] = .instr (.dad rp) [] := by
  cases rp <;> rfl

end Sys2Proof

namespace Sys2Proof.Machine

/-! ### Additions into the accumulator -/

/-- Everything an addition into A does, for any addend and carry in (`41_arithmetic.md` R120). -/
theorem addFlags_setAccFlags_add8_retire (s : State) (b : Byte) (c : Bool) (n : Word) :
    AccumulatorOnly n s ((s.setAccFlags (add8 s.a b c)).retire n) ∧
      AddFlags s.a.toNat b.toNat c.toNat ((s.setAccFlags (add8 s.a b c)).retire n).a
        ((s.setAccFlags (add8 s.a b c)).retire n).flags :=
  ⟨accumulatorOnly_setAccFlags_retire s _ n, add8_spec s.a b c⟩

/-! ### An ALU result in an operand and the flags -/

@[simp] theorem State.getReg_write8Flags (s : State) (dst : Operand8) (r : Byte × Flags) (q : Reg) :
    (s.write8Flags dst r).getReg q = (s.write8 dst r.1).getReg q := by
  cases q <;> rfl

theorem systemKept_write8Flags_retire (s : State) (dst : Operand8) (r : Byte × Flags) (n : Word) :
    SystemKept s ((s.write8Flags dst r).retire n) := .retire _ (by constructor <;> simp)

theorem getReg_write8Flags_reg_retire (s : State) (r : Reg) (v : Byte × Flags) (n : Word) :
    ((s.write8Flags (.reg r) v).retire n).getReg r = v.1 := by
  simp [State.write8]

theorem regsKept_write8Flags_reg_retire (s : State) (r : Reg) (v : Byte × Flags) (n : Word) :
    RegsKept [r] s ((s.write8Flags (.reg r) v).retire n) := by
  intro q hq
  have hne : q ≠ r := by simpa using hq
  simp [State.write8, hne]

theorem memKept_write8Flags_reg_retire (s : State) (r : Reg) (v : Byte × Flags) (n : Word) :
    MemKept s ((s.write8Flags (.reg r) v).retire n) := fun addr => by simp [State.write8]

/-- Writing M changes no register. -/
theorem regsKept_write8Flags_m_retire (s : State) (v : Byte × Flags) (n : Word) :
    RegsKept [] s ((s.write8Flags .m v).retire n) := fun q _ => by simp [State.write8]

/-! ### Increment (`41_arithmetic.md` R134) -/

theorem inc8_fst (f : Flags) (v : Byte) : (inc8 f v).1 = BitVec.ofNat 8 (v.toNat + 1) := by
  apply BitVec.eq_of_toNat_eq
  simp [inc8]

theorem toNat_inc8_fst (f : Flags) (v : Byte) : (inc8 f v).1.toNat = (v.toNat + 1) % 256 := by
  simp [inc8_fst]

theorem zspOf_inc8 (f : Flags) (v : Byte) : ZspOf (inc8 f v).2 (inc8 f v).1 := zspOf_setZSP _ _

theorem inc8_ac_iff (f : Flags) (v : Byte) : (inc8 f v).2.ac = true ↔ v.toNat % 16 = 15 :=
  decide_eq_true_iff

theorem inc8_cy (f : Flags) (v : Byte) : (inc8 f v).2.cy = f.cy := rfl

/-! ### Pairs -/

@[simp] theorem State.getPair_retire (s : State) (n : Word) (rp : RegPair) :
    (s.retire n).getPair rp = s.getPair rp := by
  cases rp <;> rfl

theorem State.setPair_sp_of_ne {rp : RegPair} (h : rp ≠ .sp) (s : State) (v : Word) : (s.setPair rp v).sp = s.sp := by
  cases rp with
  | bc | de | hl => rfl
  | sp => exact absurd rfl h

/-- Everything that loading a pair and retiring keeps: SP too, unless it is the pair. -/
theorem setPair_retire_frame (s : State) (rp : RegPair) (v n : Word) :
    RegsKept (pairRegs rp) s ((s.setPair rp v).retire n) ∧
      (rp ≠ .sp → ((s.setPair rp v).retire n).sp = s.sp) ∧
      ((s.setPair rp v).retire n).flags = s.flags ∧ MemKept s ((s.setPair rp v).retire n) ∧
      ((s.setPair rp v).retire n).pc = s.pc + n ∧ SystemKept s ((s.setPair rp v).retire n) :=
  ⟨regsKept_setPair_retire s rp v n, fun h => by simp [State.setPair_sp_of_ne h], by simp,
    memKept_setPair_retire s rp v n, by simp, systemKept_setPair_retire s rp v n⟩

/-! ### DAD (`41_arithmetic.md` R140) -/

theorem State.getReg_withFlags (s : State) (f : Flags) (r : Reg) :
    State.getReg { s with flags := f } r = s.getReg r := by
  cases r <;> rfl

theorem SystemKept.withFlags {s u : State} (f : Flags) (h : SystemKept s u) : SystemKept s { u with flags := f } where
  run := h.run
  inte := h.inte
  pin := h.pin
  pout := h.pout
  digits := h.digits
  key := h.key
  request := h.request

/-- The state after DAD: its HL write is a pair write, and of the flags only CY is written. -/
theorem exec_dad (rp : RegPair) (s : State) :
    exec (.dad rp) s =
      .next { (s.setPair .hl (s.hl + s.getPair rp)).retire 1 with
        flags := { s.flags with cy := decide (s.hl.toNat + (s.getPair rp).toNat > 0xFFFF) } } := by
  have hsum : BitVec.ofNat 16 (s.hl.toNat + (s.getPair rp).toNat) = s.hl + s.getPair rp := by
    rw [BitVec.ofNat_add, BitVec.ofNat_toNat, BitVec.ofNat_toNat, BitVec.setWidth_eq, BitVec.setWidth_eq]
  rw [← hsum]
  rfl

end Sys2Proof.Machine

namespace Sys2Proof

open Sys2Proof.Machine

/-! ### The obligations -/

/-- Settles O16: each of these meanings is `add8` into A and the flags, then `retire`. -/
theorem addIntoAccumulator : Obligations.AddIntoAccumulator := by
  intro src d8 s
  rw [← State.read8_eq]
  refine ⟨⟨decode_add src, ?add⟩, ⟨rfl, ?adi⟩, ⟨decode_adc src, ?adc⟩, ⟨rfl, ?aci⟩⟩
  case add => exact ⟨_, rfl, addFlags_setAccFlags_add8_retire s (s.read8 src) false 1⟩
  case adi => exact ⟨_, rfl, addFlags_setAccFlags_add8_retire s d8 false 2⟩
  case adc => exact ⟨_, rfl, addFlags_setAccFlags_add8_retire s (s.read8 src) s.flags.cy 1⟩
  case aci => exact ⟨_, rfl, addFlags_setAccFlags_add8_retire s d8 s.flags.cy 2⟩

/-- Settles O19: INR writes `inc8` of the operand and the flags, then retires; to M the write goes through the Bus,
which drops it in ROM, and the flags are those of the result in either region. -/
theorem increment : Obligations.Increment := by
  intro r s
  refine ⟨⟨decode_inr_reg r, _, rfl, ?value, ?zsp, inc8_ac_iff s.flags (s.getReg r),
    inc8_cy s.flags (s.getReg r),
    regsKept_write8Flags_reg_retire s r _ 1, by simp, memKept_write8Flags_reg_retire s r _ 1, by simp,
    systemKept_write8Flags_retire s (.reg r) _ 1⟩, rfl, ?m⟩
  case value =>
    rw [getReg_write8Flags_reg_retire]
    exact toNat_inc8_fst s.flags (s.getReg r)
  case zsp =>
    rw [getReg_write8Flags_reg_retire]
    exact zspOf_inc8 s.flags (s.getReg r)
  case m =>
    exact ⟨_, (inc8 s.flags (s.busRead s.hl)).1, rfl, inc8_fst _ _, zspOf_inc8 _ _, inc8_ac_iff _ _, inc8_cy _ _,
      memAfter_write8Flags_m_retire s _ 1, regsKept_write8Flags_m_retire s _ 1, by simp, by simp,
      systemKept_write8Flags_retire s .m _ 1⟩

/-- Settles O21: INX and DCX each load the pair with the next or the previous word. -/
theorem stepPair : Obligations.StepPair := by
  intro rp s
  refine ⟨⟨decode_inx rp, _, rfl, ?inx, setPair_retire_frame s rp (s.getPair rp + 1) 1⟩,
    decode_dcx rp, _, rfl, ?dcx, setPair_retire_frame s rp (s.getPair rp - 1) 1⟩
  case inx =>
    rw [State.getPair_retire, State.getPair_setPair]
    exact BitVec.toNat_add _ _
  case dcx =>
    rw [State.getPair_retire, State.getPair_setPair, BitVec.toNat_sub, Nat.add_comm]
    rfl

/-- Settles O22: DAD loads the pair HL with the sum; beside that it writes CY only. -/
theorem addPairToHl : Obligations.AddPairToHl := by
  intro rp s
  obtain ⟨hregs, -, -, hmem, hpc, hsystem⟩ := setPair_retire_frame s .hl (s.hl + s.getPair rp) 1
  refine ⟨decode_dad rp, _, exec_dad rp s, ?sum, ?carry, rfl, rfl, rfl, rfl, ?regs, rfl, hmem, hpc, ?system⟩
  case sum => exact (congrArg BitVec.toNat (State.getPair_setPair s .hl _)).trans (BitVec.toNat_add _ _)
  case carry => exact decide_eq_true_iff
  case regs => exact fun r hr => (State.getReg_withFlags _ _ r).trans (hregs r hr)
  case system => exact hsystem.withFlags _

end Sys2Proof
end


section
/-! PROOFS. Logical, rotate, complement and carry (`42_logical.md`): the decoding of its rows, what XOR, OR and the
rotations give, and the obligations O27, O28, O30. -/

namespace Sys2Proof

open Sys2Proof.Machine

/-! ### Decoding -/

theorem decode_xra (src : Operand8) : decode [BitVec.ofNat 8 (0xA8 + operandCode src)] = .instr (.xra src) [] := by
  cases src with
  | reg r => cases r <;> rfl
  | m => rfl

theorem decode_ora (src : Operand8) : decode [BitVec.ofNat 8 (0xB0 + operandCode src)] = .instr (.ora src) [] := by
  cases src with
  | reg r => cases r <;> rfl
  | m => rfl

end Sys2Proof

namespace Sys2Proof.Machine

/-! ### XOR and OR (`42_logical.md` R150) -/

/-- Everything `xor8` gives. -/
theorem xor8_spec (a b : Byte) :
    (xor8 a b).1 = a ^^^ b ∧ ZspOf (xor8 a b).2 (xor8 a b).1 ∧ (xor8 a b).2.cy = false ∧ (xor8 a b).2.ac = false :=
  ⟨rfl, zspOf_setZSP _ _, rfl, rfl⟩

/-- Everything `or8` gives. -/
theorem or8_spec (a b : Byte) :
    (or8 a b).1 = a ||| b ∧ ZspOf (or8 a b).2 (or8 a b).1 ∧ (or8 a b).2.cy = false ∧ (or8 a b).2.ac = false :=
  ⟨rfl, zspOf_setZSP _ _, rfl, rfl⟩

/-! ### Rotations (`42_logical.md` R163 to R166) -/

theorem toNat_getLsbD_seven (a : Byte) : (a.getLsbD 7).toNat = a.toNat / 128 := by
  have ha := a.isLt
  have hbit : (a.getLsbD 7).toNat = a.toNat / 2 ^ 7 % 2 := Nat.toNat_testBit a.toNat 7
  omega

theorem toNat_getLsbD_zero (a : Byte) : (a.getLsbD 0).toNat = a.toNat % 2 := by
  have hbit : (a.getLsbD 0).toNat = a.toNat / 2 ^ 0 % 2 := Nat.toNat_testBit a.toNat 0
  omega

theorem getLsbD_zero_iff (a : Byte) : a.getLsbD 0 = true ↔ a.toNat % 2 = 1 := by
  rw [← toNat_getLsbD_zero, Bool.toNat_eq_one]

theorem toNat_bitByte (b : Bool) : (bitByte b).toNat = b.toNat := by
  cases b <;> rfl

/-- A byte moved left by one bit with a bit put in at the bottom: the two parts share no bit, so OR adds them. -/
theorem toNat_shiftLeft_or_bitByte (a : Byte) (b : Bool) :
    ((a <<< 1) ||| bitByte b).toNat = a.toNat * 2 % 256 + b.toNat := by
  have hshift : (a <<< 1).toNat = (a.toNat % 128) <<< 1 := by
    rw [BitVec.toNat_shiftLeft, Nat.shiftLeft_eq, Nat.shiftLeft_eq]
    omega
  have hdisjoint := Nat.shiftLeft_add_eq_or_of_lt (i := 1) (Bool.toNat_lt b) (a.toNat % 128)
  rw [BitVec.toNat_or, hshift, toNat_bitByte, ← hdisjoint, Nat.shiftLeft_eq]
  omega

/-- A byte moved right by one bit with a bit put in at the top: the two parts share no bit, so OR adds them. -/
theorem toNat_shiftRight_or_bitByte (a : Byte) (b : Bool) :
    ((a >>> 1) ||| (bitByte b <<< 7)).toNat = a.toNat / 2 + 128 * b.toNat := by
  have ha : a.toNat / 2 < 2 ^ 7 := by
    have := a.isLt
    omega
  have hshift : (bitByte b <<< 7).toNat = b.toNat <<< 7 := by
    cases b <;> rfl
  have hdisjoint := Nat.shiftLeft_add_eq_or_of_lt ha b.toNat
  rw [BitVec.toNat_or, BitVec.toNat_ushiftRight, Nat.shiftRight_one, hshift, Nat.or_comm, ← hdisjoint, Nat.shiftLeft_eq]
  omega

theorem toNat_rotLeft_fst (f : Flags) (a : Byte) :
    (rotLeft f a).1.toNat = a.toNat * 2 % 256 + a.toNat / 128 := by
  rw [← toNat_getLsbD_seven]
  exact toNat_shiftLeft_or_bitByte a _

theorem toNat_rotRight_fst (f : Flags) (a : Byte) :
    (rotRight f a).1.toNat = a.toNat / 2 + 128 * (a.toNat % 2) := by
  rw [← toNat_getLsbD_zero]
  exact toNat_shiftRight_or_bitByte a _

/-- The frame of an ALU result whose flags are the old ones with another CY. -/
theorem onlyCarryChanged_setAccFlags_retire (s : State) (v : Byte) (c : Bool) (n : Word) :
    OnlyCarryChanged s ((s.setAccFlags (v, { s.flags with cy := c })).retire n) :=
  ⟨rfl, rfl, rfl, rfl⟩

/-! ### Complement and carry (`42_logical.md` R167 to R169) -/

/-- Loading A is one way to write at most A and the flags. -/
theorem LoadsRegister.accumulatorOnly {v : Byte} {n : Word} {s t : State} (h : LoadsRegister .a v n s t) :
    AccumulatorOnly n s t where
  regs := h.regs
  sp := h.sp
  mem := h.mem
  pc := h.pc
  system := h.system

/-- Writing the flags and retiring: an ALU result that gives A its own value. -/
theorem accumulatorOnly_withFlags_retire (s : State) (f : Flags) (n : Word) :
    AccumulatorOnly n s (State.retire { s with flags := f } n) :=
  accumulatorOnly_setAccFlags_retire s (s.a, f) n

theorem exec_cma (s : State) : exec .cma s = .next ((s.setReg .a (~~~s.a)).retire 1) := rfl

end Sys2Proof.Machine

namespace Sys2Proof

open Sys2Proof.Machine

/-! ### The obligations -/

/-- Settles O27: each of these meanings is `xor8` or `or8` into A and the flags, then `retire`. -/
theorem xorAndOrIntoAccumulator : Obligations.XorAndOrIntoAccumulator := by
  intro src d8 s
  rw [← State.read8_eq]
  refine ⟨⟨decode_xra src, ?xra⟩, ⟨rfl, ?xri⟩, ⟨decode_ora src, ?ora⟩, ⟨rfl, ?ori⟩⟩
  case xra => exact ⟨_, rfl, accumulatorOnly_setAccFlags_retire s _ 1, xor8_spec s.a (s.read8 src)⟩
  case xri => exact ⟨_, rfl, accumulatorOnly_setAccFlags_retire s _ 2, xor8_spec s.a d8⟩
  case ora => exact ⟨_, rfl, accumulatorOnly_setAccFlags_retire s _ 1, or8_spec s.a (s.read8 src)⟩
  case ori => exact ⟨_, rfl, accumulatorOnly_setAccFlags_retire s _ 2, or8_spec s.a d8⟩

/-- Settles O28: each of these meanings is a shift of A by one bit with a bit put in at the free end, then `retire`; of
the flags only CY is written, with the bit moved out. -/
theorem rotateAccumulator : Obligations.RotateAccumulator := by
  intro s
  refine ⟨⟨rfl, ?rlc⟩, ⟨rfl, ?rrc⟩, ⟨rfl, ?ral⟩, ⟨rfl, ?rar⟩⟩
  case rlc =>
    exact ⟨_, rfl, accumulatorOnly_setAccFlags_retire s _ 1, toNat_rotLeft_fst s.flags s.a, getLsbD_seven_iff s.a,
      onlyCarryChanged_setAccFlags_retire s _ _ 1⟩
  case rrc =>
    exact ⟨_, rfl, accumulatorOnly_setAccFlags_retire s _ 1, toNat_rotRight_fst s.flags s.a, getLsbD_zero_iff s.a,
      onlyCarryChanged_setAccFlags_retire s _ _ 1⟩
  case ral =>
    exact ⟨_, rfl, accumulatorOnly_setAccFlags_retire s _ 1, toNat_shiftLeft_or_bitByte s.a s.flags.cy,
      getLsbD_seven_iff s.a, onlyCarryChanged_setAccFlags_retire s _ _ 1⟩
  case rar =>
    exact ⟨_, rfl, accumulatorOnly_setAccFlags_retire s _ 1, toNat_shiftRight_or_bitByte s.a s.flags.cy,
      getLsbD_zero_iff s.a, onlyCarryChanged_setAccFlags_retire s _ _ 1⟩

/-- Settles O30: CMA loads A with its complement, an involution; CMC and STC write CY alone. -/
theorem complementAndCarry : Obligations.ComplementAndCarry := by
  intro s
  refine ⟨⟨rfl, ?cma⟩, ⟨rfl, ?cmc⟩, ⟨rfl, ?stc⟩⟩
  case cma =>
    have hload := loadsRegister_setReg_retire s .a (~~~s.a) 1
    exact ⟨_, exec_cma s, hload.accumulatorOnly, BitVec.toNat_not, hload.flags, _, exec_cma _, BitVec.not_not⟩
  case cmc => exact ⟨_, rfl, accumulatorOnly_withFlags_retire s _ 1, rfl, rfl⟩
  case stc => exact ⟨_, rfl, accumulatorOnly_withFlags_retire s _ 1, rfl, rfl⟩

end Sys2Proof
end


section
/-! PROOFS. Branch (`43_branch.md`): the decoding of RST, when a condition is met, the frames of a control transfer, what a
jump, a call and a return do when taken and when not, and the obligations O31 to O33. -/

namespace Sys2Proof

open Sys2Proof.Machine

/-! ### Decoding -/

theorem decode_rst (n : Fin 8) : decode [BitVec.ofNat 8 (0xC7 + 8 * n.val)] = .instr (.rst n) [] := by
  fin_cases n <;> rfl

end Sys2Proof

namespace Sys2Proof.Machine

theorem toNat_restartVector (n : Fin 8) : (restartVector n).toNat = 8 * n.val := by
  rw [restartVector, BitVec.toNat_ofNat]
  omega

/-! ### Conditions (`30_encoding.md` R74) -/

/-- The flag that a condition names has the value that it asks for. -/
def Flags.Meets (f : Flags) : Cond → Prop
  | .nz => f.z = false
  | .z => f.z = true
  | .nc => f.cy = false
  | .c => f.cy = true
  | .po => f.p = false
  | .pe => f.p = true
  | .p => f.s = false
  | .m => f.s = true

theorem Flags.cond_iff_meets (f : Flags) (cond : Cond) : f.cond cond = true ↔ f.Meets cond := by
  cases cond <;> simp [Flags.cond, Flags.Meets]

section Conditional

variable {s : State} {cond : Cond}

theorem State.jumpIf_of_meets (h : s.flags.Meets cond) (addr : Word) : s.jumpIf cond addr = s.jumpTo addr :=
  if_pos ((s.flags.cond_iff_meets cond).mpr h)

theorem State.jumpIf_of_not_meets (h : ¬ s.flags.Meets cond) (addr : Word) : s.jumpIf cond addr = s.retire 3 :=
  if_neg (mt (s.flags.cond_iff_meets cond).mp h)

theorem State.callIf_of_meets (h : s.flags.Meets cond) (addr : Word) : s.callIf cond addr = s.callTo 3 addr :=
  if_pos ((s.flags.cond_iff_meets cond).mpr h)

theorem State.callIf_of_not_meets (h : ¬ s.flags.Meets cond) (addr : Word) : s.callIf cond addr = s.retire 3 :=
  if_neg (mt (s.flags.cond_iff_meets cond).mp h)

theorem State.returnIf_of_meets (h : s.flags.Meets cond) : s.returnIf cond = s.returnToCaller :=
  if_pos ((s.flags.cond_iff_meets cond).mpr h)

theorem State.returnIf_of_not_meets (h : ¬ s.flags.Meets cond) : s.returnIf cond = s.retire 1 :=
  if_neg (mt (s.flags.cond_iff_meets cond).mp h)

end Conditional

/-! ### Control transfers -/

theorem controlTransfer_retire (s : State) (n : Word) : ControlTransfer s (s.retire n) where
  regs := fun r _ => s.getReg_retire n r
  flags := rfl
  system := .retire n (by constructor <;> rfl)

/-- Setting PC keeps what `ControlTransfer` keeps. -/
theorem ControlTransfer.jumpTo {s u : State} (target : Word) (h : ControlTransfer s u) :
    ControlTransfer s (u.jumpTo target) where
  regs := fun r hr => (u.getReg_jumpTo target r).trans (h.regs r hr)
  flags := h.flags
  system := h.system.jumpTo target

theorem controlTransfer_jumpTo (s : State) (target : Word) : ControlTransfer s (s.jumpTo target) :=
  .jumpTo target ⟨fun _ _ => rfl, rfl, by constructor <;> rfl⟩

theorem controlTransfer_push16 (s : State) (v : Word) : ControlTransfer s (s.push16 v) where
  regs := fun r _ => s.getReg_push16 v r
  flags := s.push16_flags v
  system := by constructor <;> simp

theorem controlTransfer_callTo (s : State) (n target : Word) : ControlTransfer s (s.callTo n target) :=
  (controlTransfer_push16 s (s.nextPc n)).jumpTo target

/-- A call leaves the address after it on the stack, whichever region the stack lies in. -/
theorem pushesWord_callTo (s : State) (n target : Word) : PushesWord (s.pc + n).toNat s (s.callTo n target) where
  mem := (pushesWord_push16 s (s.nextPc n)).mem
  sp := s.callTo_sp n target

theorem State.getReg_returnToCaller (s : State) (r : Reg) : s.returnToCaller.getReg r = s.getReg r := by
  cases r <;> rfl

theorem controlTransfer_returnToCaller (s : State) : ControlTransfer s s.returnToCaller where
  regs := fun r _ => s.getReg_returnToCaller r
  flags := rfl
  system := .jumpTo _ (by constructor <;> rfl)

theorem toNat_returnToCaller_pc (s : State) : s.returnToCaller.pc.toNat = stackTop s :=
  toNat_wordOf (s.busRead (s.sp + 1)) (s.busRead s.sp)

/-! ### Jumps, calls and returns, taken and not taken -/

section Transfers

variable {taken : Prop} {i : Instr} {addr : Word} {s : State}

theorem JumpsWhen.of_taken (h : taken) (hexec : exec i s = .next (s.jumpTo addr)) : JumpsWhen taken i addr s :=
  ⟨_, hexec, controlTransfer_jumpTo s addr, fun _ => rfl, rfl, fun _ => rfl, fun hn => absurd h hn⟩

theorem JumpsWhen.of_not_taken (h : ¬ taken) (hexec : exec i s = .next (s.retire 3)) : JumpsWhen taken i addr s :=
  ⟨_, hexec, controlTransfer_retire s 3, fun _ => rfl, rfl, fun ht => absurd ht h, fun _ => rfl⟩

theorem CallsWhen.of_taken (h : taken) (hexec : exec i s = .next (s.callTo 3 addr)) : CallsWhen taken i addr s :=
  ⟨_, hexec, controlTransfer_callTo s 3 addr, fun _ => ⟨rfl, pushesWord_callTo s 3 addr⟩, fun hn => absurd h hn⟩

theorem CallsWhen.of_not_taken (h : ¬ taken) (hexec : exec i s = .next (s.retire 3)) : CallsWhen taken i addr s :=
  ⟨_, hexec, controlTransfer_retire s 3, fun ht => absurd ht h, fun _ => ⟨rfl, rfl, fun _ => rfl⟩⟩

theorem ReturnsWhen.of_taken (h : taken) (hexec : exec i s = .next s.returnToCaller) : ReturnsWhen taken i s :=
  ⟨_, hexec, controlTransfer_returnToCaller s, fun _ => rfl, fun _ => ⟨toNat_returnToCaller_pc s, rfl⟩,
    fun hn => absurd h hn⟩

theorem ReturnsWhen.of_not_taken (h : ¬ taken) (hexec : exec i s = .next (s.retire 1)) : ReturnsWhen taken i s :=
  ⟨_, hexec, controlTransfer_retire s 1, fun _ => rfl, fun ht => absurd ht h, fun _ => ⟨rfl, rfl⟩⟩

/-- An instruction whose meaning is `jumpIf` jumps exactly when its condition is met. -/
theorem JumpsWhen.of_jumpIf (cond : Cond) (hexec : exec i s = .next (s.jumpIf cond addr)) :
    JumpsWhen (s.flags.Meets cond) i addr s := by
  by_cases h : s.flags.Meets cond
  · exact .of_taken h (by rw [hexec, State.jumpIf_of_meets h])
  · exact .of_not_taken h (by rw [hexec, State.jumpIf_of_not_meets h])

/-- An instruction whose meaning is `callIf` calls exactly when its condition is met. -/
theorem CallsWhen.of_callIf (cond : Cond) (hexec : exec i s = .next (s.callIf cond addr)) :
    CallsWhen (s.flags.Meets cond) i addr s := by
  by_cases h : s.flags.Meets cond
  · exact .of_taken h (by rw [hexec, State.callIf_of_meets h])
  · exact .of_not_taken h (by rw [hexec, State.callIf_of_not_meets h])

/-- An instruction whose meaning is `returnIf` returns exactly when its condition is met. -/
theorem ReturnsWhen.of_returnIf (cond : Cond) (hexec : exec i s = .next (s.returnIf cond)) :
    ReturnsWhen (s.flags.Meets cond) i s := by
  by_cases h : s.flags.Meets cond
  · exact .of_taken h (by rw [hexec, State.returnIf_of_meets h])
  · exact .of_not_taken h (by rw [hexec, State.returnIf_of_not_meets h])

end Transfers

end Sys2Proof.Machine

namespace Sys2Proof

open Sys2Proof.Machine

/-! ### The obligations -/

/-- Settles O31: JMP and PCHL are `jumpTo`, and each Jcc is `jumpIf` of its condition. -/
theorem jumpsSetPc : Obligations.JumpsSetPc := by
  intro addr s
  refine ⟨⟨decode_three_ofNat rfl addr, ?jmp⟩, ⟨rfl, ?pchl⟩, ⟨decode_three_ofNat rfl addr, ?jnz⟩,
    ⟨decode_three_ofNat rfl addr, ?jz⟩, ⟨decode_three_ofNat rfl addr, ?jnc⟩, ⟨decode_three_ofNat rfl addr, ?jc⟩,
    ⟨decode_three_ofNat rfl addr, ?jpo⟩, ⟨decode_three_ofNat rfl addr, ?jpe⟩, ⟨decode_three_ofNat rfl addr, ?jp⟩,
    ⟨decode_three_ofNat rfl addr, ?jm⟩⟩
  case jmp => exact .of_taken trivial rfl
  case pchl => exact .of_taken trivial rfl
  case jnz => exact .of_jumpIf .nz rfl
  case jz => exact .of_jumpIf .z rfl
  case jnc => exact .of_jumpIf .nc rfl
  case jc => exact .of_jumpIf .c rfl
  case jpo => exact .of_jumpIf .po rfl
  case jpe => exact .of_jumpIf .pe rfl
  case jp => exact .of_jumpIf .p rfl
  case jm => exact .of_jumpIf .m rfl

/-- Settles O32: CALL and RST n are `callTo`, and each Ccc is `callIf` of its condition. -/
theorem callsPushTheReturnAddress : Obligations.CallsPushTheReturnAddress := by
  intro addr n s
  refine ⟨⟨decode_three_ofNat rfl addr, ?call⟩, ⟨decode_rst n, ?rst⟩, ⟨decode_three_ofNat rfl addr, ?cnz⟩,
    ⟨decode_three_ofNat rfl addr, ?cz⟩, ⟨decode_three_ofNat rfl addr, ?cnc⟩, ⟨decode_three_ofNat rfl addr, ?cc⟩,
    ⟨decode_three_ofNat rfl addr, ?cpo⟩, ⟨decode_three_ofNat rfl addr, ?cpe⟩, ⟨decode_three_ofNat rfl addr, ?cp⟩,
    ⟨decode_three_ofNat rfl addr, ?cm⟩⟩
  case call => exact .of_taken trivial rfl
  case rst =>
    exact ⟨_, rfl, controlTransfer_callTo s 1 (restartVector n), toNat_restartVector n,
      pushesWord_callTo s 1 (restartVector n)⟩
  case cnz => exact .of_callIf .nz rfl
  case cz => exact .of_callIf .z rfl
  case cnc => exact .of_callIf .nc rfl
  case cc => exact .of_callIf .c rfl
  case cpo => exact .of_callIf .po rfl
  case cpe => exact .of_callIf .pe rfl
  case cp => exact .of_callIf .p rfl
  case cm => exact .of_callIf .m rfl

/-- Settles O33: RET is `returnToCaller`, and each Rcc is `returnIf` of its condition. -/
theorem returnsPopThePc : Obligations.ReturnsPopThePc := by
  intro s
  refine ⟨⟨rfl, ?ret⟩, ⟨rfl, ?rnz⟩, ⟨rfl, ?rz⟩, ⟨rfl, ?rnc⟩, ⟨rfl, ?rc⟩, ⟨rfl, ?rpo⟩, ⟨rfl, ?rpe⟩, ⟨rfl, ?rp⟩,
    ⟨rfl, ?rm⟩⟩
  case ret => exact .of_taken trivial rfl
  case rnz => exact .of_returnIf .nz rfl
  case rz => exact .of_returnIf .z rfl
  case rnc => exact .of_returnIf .nc rfl
  case rc => exact .of_returnIf .c rfl
  case rpo => exact .of_returnIf .po rfl
  case rpe => exact .of_returnIf .pe rfl
  case rp => exact .of_returnIf .p rfl
  case rm => exact .of_returnIf .m rfl

end Sys2Proof
end


section
/-! PROOFS. Stack, I/O and machine control (`44_stack_io_control.md`): what POP loads and keeps, the frames of XTHL and
SPHL, what retiring changes without the interrupt extension, and the obligations O36, O38, O39, O42. -/

namespace Sys2Proof

open Sys2Proof.Machine

/-! ### Decoding -/

theorem decode_pop (rp : StackPair) :
    decode [BitVec.ofNat 8 (0xC1 + 16 * stackPairCode rp)] = .instr (.pop rp) [] := by
  cases rp <;> rfl

end Sys2Proof

namespace Sys2Proof.Machine

/-! ### The flag byte (`10_state.md` R15) -/

/-- A bit of a byte as a digit of its number. -/
theorem getLsbD_iff_div_mod (v : Byte) (i : Nat) : v.getLsbD i = true ↔ v.toNat / 2 ^ i % 2 = 1 := by
  rw [BitVec.getLsbD, Nat.testBit_eq_decide_div_mod_eq, decide_eq_true_iff]

/-- The bit that each flag is taken from; bits 5, 3 and 1 occur in none of them. -/
theorem Flags.ofByte_iff (v : Byte) :
    ((Flags.ofByte v).s = true ↔ v.toNat / 128 % 2 = 1) ∧
      ((Flags.ofByte v).z = true ↔ v.toNat / 64 % 2 = 1) ∧
      ((Flags.ofByte v).ac = true ↔ v.toNat / 16 % 2 = 1) ∧
      ((Flags.ofByte v).p = true ↔ v.toNat / 4 % 2 = 1) ∧
      ((Flags.ofByte v).cy = true ↔ v.toNat % 2 = 1) :=
  ⟨getLsbD_iff_div_mod v 7, getLsbD_iff_div_mod v 6, getLsbD_iff_div_mod v 4, getLsbD_iff_div_mod v 2,
    getLsbD_zero_iff v⟩

/-! ### POP (`44_stack_io_control.md` R203, R204) -/

/-- The word that POP loads has the byte at the address in its low half. -/
@[simp] theorem State.lowByte_memRead16 (s : State) (addr : Word) : lowByte (s.memRead16 addr) = s.busRead addr :=
  lowByte_wordOf _ _

/-- The word that POP loads has the byte at the next address in its high half. -/
@[simp] theorem State.highByte_memRead16 (s : State) (addr : Word) :
    highByte (s.memRead16 addr) = s.busRead (addr + 1) :=
  highByte_wordOf _ _

/-- Loading a pair of POP touches no register outside it. -/
theorem State.getReg_setStackPair_of_notMem {rp : StackPair} {r : Reg} (s : State) (v : Word)
    (h : r ∉ stackPairRegs rp) : (s.setStackPair rp v).getReg r = s.getReg r := by
  revert h
  cases rp <;> cases r <;> simp [stackPairRegs, State.setStackPair, State.getReg]

theorem exec_pop (rp : StackPair) (s : State) :
    exec (.pop rp) s = .next ((s.pop16.2.setStackPair rp (s.memRead16 s.sp)).retire 1) := rfl

/-- Everything that POP keeps beside the flags, and SP and PC after it, whatever word it loads. -/
theorem setStackPair_pop16_retire_frame (s : State) (rp : StackPair) (v n : Word) :
    ((s.pop16.2.setStackPair rp v).retire n).sp = s.sp + 2 ∧
      RegsKept (stackPairRegs rp) s ((s.pop16.2.setStackPair rp v).retire n) ∧
      MemKept s ((s.pop16.2.setStackPair rp v).retire n) ∧
      ((s.pop16.2.setStackPair rp v).retire n).pc = s.pc + n ∧
      SystemKept s ((s.pop16.2.setStackPair rp v).retire n) := by
  refine ⟨by simp [State.pop16], ?regs, ?mem, by simp [State.pop16], .retire _ ?system⟩
  case regs =>
    intro r hr
    rw [State.getReg_retire, State.getReg_setStackPair_of_notMem _ _ hr]
    cases r <;> rfl
  case mem =>
    intro addr
    rw [State.busRead_retire, State.busRead_setStackPair]
    rfl
  case system => constructor <;> simp [State.pop16]

/-! ### XTHL and SPHL (`44_stack_io_control.md` R205, R206) -/

/-- XTHL is a store of two bytes at SP, then a write of HL with the word read before the store. -/
theorem exec_xthl (s : State) :
    exec .xthl s = .next (((s.memWrite16 s.sp s.hl).retire 1).setHl (s.memRead16 s.sp)) := rfl

/-- Writing HL changes no register but H and L. -/
theorem RegsKept.setHl {s u : State} (v : Word) (h : RegsKept [] s u) : RegsKept [.h, .l] s (u.setHl v) := by
  intro r hr
  have hset : (u.setHl v).getReg r = u.getReg r := State.getReg_setStackPair_of_notMem (rp := .hl) u v hr
  rw [hset, h r List.not_mem_nil]

/-- Writing HL keeps what `SystemKept` keeps. -/
theorem SystemKept.setHl {s u : State} (v : Word) (h : SystemKept s u) : SystemKept s (u.setHl v) where
  run := h.run
  inte := h.inte
  pin := h.pin
  pout := h.pout
  digits := h.digits
  key := h.key
  request := h.request

theorem exec_sphl (s : State) : exec .sphl s = .next ((s.setPair .sp s.hl).retire 1) := rfl

/-! ### DI (`44_stack_io_control.md` R210) -/

/-- Without the interrupt extension there is no EI shadow to clear: retiring changes PC alone. -/
theorem State.retire_of_intExt_none {s : State} (h : s.intExt = none) (n : Word) :
    s.retire n = { s with pc := s.pc + n } := by
  simp [State.retire, State.clearEiShadow, State.nextPc, h]

end Sys2Proof.Machine

namespace Sys2Proof

open Sys2Proof.Machine

/-! ### The obligations -/

/-- Settles O36: POP loads the two halves of the word at SP, by cases on the pair; the frame does not depend on the pair. -/
theorem popPair : Obligations.PopPair := by
  intro rp s
  refine ⟨decode_pop rp, _, exec_pop rp s, ?loaded, setStackPair_pop16_retire_frame s rp _ 1⟩
  cases rp with
  | bc => exact ⟨s.lowByte_memRead16 s.sp, s.highByte_memRead16 s.sp, rfl⟩
  | de => exact ⟨s.lowByte_memRead16 s.sp, s.highByte_memRead16 s.sp, rfl⟩
  | hl => exact ⟨s.lowByte_memRead16 s.sp, s.highByte_memRead16 s.sp, rfl⟩
  | psw =>
    rw [← s.lowByte_memRead16 s.sp]
    exact ⟨s.highByte_memRead16 s.sp, Flags.ofByte_iff (lowByte (s.memRead16 s.sp))⟩

/-- Settles O38: the word that HL takes is read from the state before the store. -/
theorem exchangeStackTop : Obligations.ExchangeStackTop := by
  intro s
  have hstore := storesBytes_memWrite16_retire s s.sp s.hl 1
  rw [State.hl, lowByte_wordOf, highByte_wordOf] at hstore
  exact ⟨rfl, _, exec_xthl s, s.lowByte_memRead16 s.sp, s.highByte_memRead16 s.sp, hstore.mem, hstore.regs.setHl _,
    hstore.sp, hstore.flags, hstore.pc, hstore.system.setHl _⟩

/-- Settles O39: SPHL loads the pair SP with HL, and NOP is `retire` alone. -/
theorem loadSpAndNop : Obligations.LoadSpAndNop := by
  intro s
  refine ⟨⟨rfl, ?sphl⟩, ⟨rfl, ?nop⟩⟩
  case sphl =>
    obtain ⟨hregs, -, hflags, hmem, hpc, hsystem⟩ := setPair_retire_frame s .sp s.hl 1
    exact ⟨_, exec_sphl s, toNat_wordOf s.h s.l, hregs, hflags, hmem, hpc, hsystem⟩
  case nop =>
    obtain ⟨hregs, hflags, hsystem⟩ := controlTransfer_retire s 1
    exact ⟨_, rfl, rfl, hregs, hflags, fun _ => rfl, rfl, hsystem⟩

/-- Settles O42: DI clears INTE and retires, which clears the EI shadow where there is one and keeps the request. -/
theorem disableInterrupts : Obligations.DisableInterrupts := by
  intro s
  refine ⟨rfl, _, rfl, rfl, rfl, rfl, rfl, rfl, rfl, rfl, ?regs, rfl, rfl, fun _ => rfl, rfl, ?noExtension⟩
  case regs => exact fun r _ => (State.getReg_retire _ 1 r).trans (s.getReg_withInte false r)
  case noExtension => exact fun h => State.retire_of_intExt_none (s := { s with inte := false }) h 1

end Sys2Proof
end


section
/-! PROOFS. Encoding (`30_encoding.md`): the decoder and the encoder undo each other, what the first byte decides, and
the obligations O1 to O4. -/

namespace Sys2Proof

open Sys2Proof.Machine

/-! ### The decoder undoes the encoder -/

theorem decode_encF1 {op : Nat} {i : Instr} (h : decodeOpcode (BitVec.ofNat 8 op) = .one i) (rest : List Byte) :
    decode (encF1 op ++ rest) = .instr i rest := by
  simp [encF1, decode_cons, h, Shape.take]

theorem decode_encF2 {op : Nat} {build : Byte → Instr} (h : decodeOpcode (BitVec.ofNat 8 op) = .two build) (d8 : Byte)
    (rest : List Byte) : decode (encF2 op d8 ++ rest) = .instr (build d8) rest := by
  simp [encF2, decode_cons, h, Shape.take]

theorem decode_encF3 {op : Nat} {build : Word → Instr} (h : decodeOpcode (BitVec.ofNat 8 op) = .three build) (w : Word)
    (rest : List Byte) : decode (encF3 op w ++ rest) = .instr (build w) rest :=
  decode_three h w rest

/-- MOV, every pair of operands but M, M, whose slot is HLT. -/
theorem decodeOpcode_mov {dst src : Operand8} (hwf : (Instr.mov dst src).wf = true) :
    decodeOpcode (BitVec.ofNat 8 (0x40 + 8 * operandCode dst + operandCode src)) = .one (.mov dst src) := by
  cases dst with
  | reg r =>
    cases src with
    | reg q => cases r <;> cases q <;> rfl
    | m => cases r <;> rfl
  | m =>
    cases src with
    | reg q => cases q <;> rfl
    | m => exact absurd hwf (by decide)

/-- Settles O2: each opcode of the encoder selects the row of its instruction; the bytes after it are read back. -/
theorem decodeEncodeRoundTrip : Obligations.DecodeEncodeRoundTrip := by
  intro i rest hwf
  cases i with
  | mov dst src => exact decode_encF1 (decodeOpcode_mov hwf) rest
  | illegal op =>
    have hrow : decodeOpcode op = .one (.illegal op) := decodeOpcode_of_illegal hwf
    simp [encode, decode_cons, hrow, Shape.take]
  | mvi dst d8 =>
    cases dst with
    | reg r => cases r <;> exact decode_encF2 rfl d8 rest
    | m => exact decode_encF2 rfl d8 rest
  | add src | adc src | sub src | sbb src | ana src | xra src | ora src | cmp src | inr src | dcr src =>
    cases src with
    | reg r => cases r <;> rfl
    | m => rfl
  | inx rp | dcx rp | dad rp | push rp | pop rp | ldax rp | stax rp => cases rp <;> rfl
  | rst n => fin_cases n <;> rfl
  | lxi rp w => cases rp <;> exact decode_encF3 rfl w rest
  | lda w | sta w | lhld w | shld w | jmp w | jnz w | jz w | jnc w | jc w | jpo w | jpe w | jp w | jm w | call w
  | cnz w | cz w | cnc w | cc w | cpo w | cpe w | cp w | cm w => exact decode_encF3 rfl w rest
  | _ => rfl

/-! ### The encoder undoes the decoder -/

/-- Settles O3: every row of the opcode map is faithful, and taking its bytes takes what the encoder writes. -/
theorem decodedBytesReencode : Obligations.DecodedBytesReencode := by
  intro bytes i rest h
  cases bytes with
  | nil => cases h
  | cons op tail =>
    have hrow := decodeOpcode_faithful op
    rw [decode_cons] at h
    cases hshape : decodeOpcode op with
    | one j =>
      rw [hshape] at h hrow
      cases h
      exact ⟨hrow.1, congrArg (· ++ rest) hrow.2⟩
    | two build =>
      rw [hshape] at h hrow
      cases tail with
      | nil => cases h
      | cons d8 tail =>
        cases h
        exact ⟨(hrow d8).1, congrArg (· ++ rest) (hrow d8).2⟩
    | three build =>
      rw [hshape] at h hrow
      match tail, h with
      | low :: high :: tail, h =>
        cases h
        refine ⟨(hrow _).1, ?_⟩
        rw [(hrow _).2, imm16, lowByte_wordOf, highByte_wordOf]
        rfl

/-! ### The first byte decides (`30_encoding.md` R77, R80) -/

/-- How many bytes an opcode takes after itself. -/
def Shape.operandBytes : Shape → Nat
  | .one _ => 0
  | .two _ => 1
  | .three _ => 2

/-- The bytes after an opcode that its shape does not take are left. -/
theorem Shape.exists_take_eq (op b1 b2 : Byte) (shape : Shape) :
    ∃ i, shape.take op [b1, b2] = .instr i ([b1, b2].drop shape.operandBytes) := by
  cases shape with
  | one i => exact ⟨i, rfl⟩
  | two build => exact ⟨build b1, rfl⟩
  | three build => exact ⟨build (imm16 b1 b2), rfl⟩

/-- The opcodes of format F3, and of format F2 (`30_encoding.md` R71, R80). -/
theorem operandBytes_decodeOpcode : ∀ op : Byte, (decodeOpcode op).operandBytes =
    if op ∈ ([0x01, 0x11, 0x21, 0x31, 0x22, 0x2A, 0x32, 0x3A, 0xC2, 0xCA, 0xD2, 0xDA, 0xE2, 0xEA, 0xF2, 0xFA, 0xC3,
        0xC4, 0xCC, 0xD4, 0xDC, 0xE4, 0xEC, 0xF4, 0xFC, 0xCD] : List Byte) then 2
    else if op ∈ ([0x06, 0x0E, 0x16, 0x1E, 0x26, 0x2E, 0x36, 0x3E, 0xC6, 0xCE, 0xD6, 0xDE, 0xE6, 0xEE, 0xF6, 0xFE,
        0xD3, 0xDB] : List Byte) then 1
    else 0 := by decide

/-- An illegal instruction is decoded from its byte alone. -/
theorem eq_of_decode_illegal {op op' : Byte} {rest tail : List Byte}
    (h : decode (op :: rest) = .instr (.illegal op') tail) : op' = op ∧ tail = rest :=
  List.cons_eq_cons.mp (decodedBytesReencode _ _ _ h).2

/-- The illegal verdict is that of `ILLEGAL_SET`. -/
theorem decode_eq_illegal_iff (op : Byte) (rest : List Byte) :
    decode (op :: rest) = .instr (.illegal op) rest ↔ op ∈ Config.illegalSet := by
  rw [← List.contains_iff_mem]
  constructor
  · exact fun h => (decodedBytesReencode _ _ _ h).1
  · intro h
    rw [decode_cons, decodeOpcode_of_illegal h, Shape.take]

/-- Settles O4: the illegal verdict is `ILLEGAL_SET`'s, and the shape of the opcode says how many bytes are left. -/
theorem firstByteDecides : Obligations.FirstByteDecides := by
  refine ⟨fun op rest => ⟨decode_eq_illegal_iff op rest, fun op' tail => eq_of_decode_illegal⟩, ?_⟩
  intro op b1 b2
  obtain ⟨i, hi⟩ := (decodeOpcode op).exists_take_eq op b1 b2
  refine ⟨i, ?_⟩
  rw [decode_cons, hi, operandBytes_decodeOpcode]
  split_ifs <;> rfl

/-- Settles O1: the decoder evaluated on nine fixed words. -/
theorem sampleWordsDecode : Obligations.SampleWordsDecode := by
  unfold Obligations.SampleWordsDecode
  decide

end Sys2Proof
end


section
/-! PROOFS. What executing an instruction and what a tick can do beside the registers, stated once for the system state
and for memory; the flag table and the whole-machine rules that follow: the obligations O7, O8, O45 to O47, O49, O50,
O54. -/

namespace Sys2Proof

/-- The instructions that keep what `SystemKept` keeps: all but OUT, EI, DI, HLT and the illegal bytes. -/
def Instr.isOrdinary : Instr → Bool
  | .outp _ | .ei | .di | .hlt | .illegal _ => false
  | _ => true

end Sys2Proof

namespace Sys2Proof.Machine

/-! ### The system state -/

/-- Everything an instruction can do to what `SystemKept` speaks of: an ordinary one keeps it, and the state after
each of the five others is given whole. -/
inductive SystemEffect : Instr → State → State → Prop
  | kept {i : Instr} {s t : State} (ordinary : i.isOrdinary = true) (kept : SystemKept s t) : SystemEffect i s t
  | outp (port : Byte) (s : State) : SystemEffect (.outp port) s ((s.portWrite port s.a).retire 2)
  | ei (s : State) : SystemEffect .ei s (State.retire { s with inte := true } 1).setEiShadow
  | di (s : State) : SystemEffect .di s (State.retire { s with inte := false } 1)
  | hlt (s : State) : SystemEffect .hlt s (State.retire { s with run := .halted } 1)
  | illegal (op : Byte) (s : State) : SystemEffect (.illegal op) s s.takeIllegalOpcode

/-- The effect of every instruction, by the shared operation that its meaning ends in. -/
theorem exec_systemEffect {i : Instr} {s t : State} (h : exec i s = .next t) : SystemEffect i s t := by
  cases i with
  | outp port => cases h; exact .outp port s
  | ei => cases h; exact .ei s
  | di => cases h; exact .di s
  | hlt => cases h; exact .hlt s
  | illegal op => cases h; exact .illegal op s
  | jmp | pchl => cases h; exact .kept rfl (.jumpTo _ (by constructor <;> rfl))
  | jnz | jz | jnc | jc | jpo | jpe | jp | jm | call | cnz | cz | cnc | cc | cpo | cpe | cp | cm | rst
  | ret | rnz | rz | rnc | rc | rpo | rpe | rp | rm =>
    cases h; exact .kept rfl (by constructor <;> simp [Function.comp_def])
  | pop => cases h; exact .kept rfl (.retire _ (by constructor <;> simp [State.pop16]))
  | _ => cases h; exact .kept rfl (.retire _ (by constructor <;> simp))

/-- Everything an instruction can do to the run state (`60_exceptions.md` R236). -/
theorem exec_run_cases {i : Instr} {s t : State} (h : exec i s = .next t) :
    (t.run = .halted ∧ (i = .hlt ∨ ∃ op, i = .illegal op)) ∨
      (t.run = s.run ∧ ¬ (i = .hlt ∨ ∃ op, i = .illegal op)) := by
  cases exec_systemEffect h with
  | kept hi hkept => exact .inr ⟨hkept.run, by rintro (rfl | ⟨op, rfl⟩) <;> cases hi⟩
  | hlt => exact .inl ⟨rfl, .inl rfl⟩
  | illegal op => exact .inl ⟨rfl, .inr ⟨op, rfl⟩⟩
  | outp | ei | di => exact .inr ⟨by simp, by simp⟩

/-! ### Memory -/

/-- Bytes written through the Bus one after the other. -/
def State.busWrites (s : State) (stores : List (Word × Byte)) : State :=
  stores.foldl (fun u store => u.busWrite store.1 store.2) s

theorem State.busRead_busWrites_rom {addr : Word} (h : regionOf addr = .rom) (s : State) (stores : List (Word × Byte)) :
    (s.busWrites stores).busRead addr = s.busRead addr := by
  induction stores generalizing s with
  | nil => rfl
  | cons store rest ih => exact (ih _).trans (State.busRead_busWrite_rom h)

theorem Memory.wf_busWrites {s : State} (stores : List (Word × Byte)) (h : s.mem.wf = true) :
    (s.busWrites stores).mem.wf = true := by
  induction stores generalizing s with
  | nil => exact h
  | cons store rest ih => exact ih (Memory.wf_busWrite _ _ h)

/-- Memory changes by Bus writes alone. -/
def WritesMemory (s t : State) : Prop := ∃ stores, t.mem = (s.busWrites stores).mem

theorem WritesMemory.of_kept {s t : State} (h : t.mem = s.mem) : WritesMemory s t := ⟨[], h⟩

theorem writesMemory_write8 (s : State) (dst : Operand8) (v : Byte) : WritesMemory s (s.write8 dst v) := by
  cases dst with
  | reg r => exact .of_kept (s.setReg_mem r v)
  | m => exact ⟨[(s.hl, v)], rfl⟩

theorem writesMemory_push16 (s : State) (v : Word) : WritesMemory s (s.push16 v) :=
  ⟨[(s.sp - 1, highByte v), (s.sp - 2, lowByte v)], rfl⟩

theorem writesMemory_memWrite16 (s : State) (addr v : Word) : WritesMemory s (s.memWrite16 addr v) :=
  ⟨[(addr, lowByte v), (addr + 1, highByte v)], rfl⟩

theorem writesMemory_callIf (s : State) (cond : Cond) (addr : Word) : WritesMemory s (s.callIf cond addr) := by
  by_cases h : s.flags.Meets cond
  · rw [State.callIf_of_meets h]
    exact writesMemory_push16 s (s.nextPc 3)
  · rw [State.callIf_of_not_meets h]
    exact .of_kept rfl

/-- Every instruction writes memory through the Bus alone (`20_memory.md` R43). -/
theorem exec_writesMemory {i : Instr} {s t : State} (h : exec i s = .next t) : WritesMemory s t := by
  cases i with
  | mov dst src => cases h; exact writesMemory_write8 s dst (s.read8 src)
  | mvi dst d8 => cases h; exact writesMemory_write8 s dst d8
  | inr dst => cases h; exact writesMemory_write8 s dst (inc8 s.flags (s.read8 dst)).1
  | dcr dst => cases h; exact writesMemory_write8 s dst (dec8 s.flags (s.read8 dst)).1
  | sta addr => cases h; exact ⟨[(addr, s.a)], rfl⟩
  | stax rp => cases h; exact ⟨[(s.getIndexPair rp, s.a)], rfl⟩
  | shld addr => cases h; exact writesMemory_memWrite16 s addr s.hl
  | xthl => cases h; exact writesMemory_memWrite16 s s.sp s.hl
  | push rp => cases h; exact writesMemory_push16 s (s.getStackPair rp)
  | call addr => cases h; exact writesMemory_push16 s (s.nextPc 3)
  | rst n => cases h; exact writesMemory_push16 s (s.nextPc 1)
  | cnz | cz | cnc | cc | cpo | cpe | cp | cm => cases h; exact writesMemory_callIf s _ _
  | _ => cases h; exact .of_kept (by simp [State.pop16])

/-- Every tick writes memory through the Bus alone. -/
theorem step_writesMemory {s t : State} (h : step s = .next t) : WritesMemory s t := by
  obtain ⟨-, ht⟩ | ⟨n, -, -, ht⟩ | ⟨-, ht⟩ := step_cases h
  · cases ht
    exact .of_kept rfl
  · cases ht
    exact writesMemory_push16 s s.pc
  · exact exec_writesMemory ht.symm

/-! ### What the host drives -/

/-- What the host alone drives: the keyboard, the input latches and whether the interrupt input exists. -/
structure HostInputsKept (s t : State) : Prop where
  key : t.key = s.key
  pin : t.pin = s.pin
  extension : t.intExt.isSome = s.intExt.isSome

theorem HostInputsKept.trans {s t u : State} (h : HostInputsKept s t) (h' : HostInputsKept t u) : HostInputsKept s u :=
  ⟨h'.key.trans h.key, h'.pin.trans h.pin, h'.extension.trans h.extension⟩

theorem SystemKept.hostInputsKept {s t : State} (h : SystemKept s t) : HostInputsKept s t where
  key := h.key
  pin := h.pin
  extension := by simpa using congrArg Option.isSome h.request

theorem exec_hostInputsKept {i : Instr} {s t : State} (h : exec i s = .next t) : HostInputsKept s t := by
  cases exec_systemEffect h with
  | kept _ hkept => exact hkept.hostInputsKept
  | outp | ei | di | hlt | illegal => constructor <;> simp

theorem step_hostInputsKept {s t : State} (h : step s = .next t) : HostInputsKept s t := by
  obtain ⟨-, ht⟩ | ⟨n, -, -, ht⟩ | ⟨-, ht⟩ := step_cases h
  · cases ht
    exact ⟨rfl, rfl, rfl⟩
  · cases ht
    constructor <;> simp
  · exact exec_hostInputsKept ht.symm

/-! ### Output latches and digits -/

/-- Everything an instruction can do to the output side: only OUT writes it. -/
theorem exec_outputs_cases {i : Instr} {s t : State} (h : exec i s = .next t) :
    (t.pout = s.pout ∧ t.digits = s.digits) ∨ ∃ port, i = .outp port ∧ t = (s.portWrite port s.a).retire 2 := by
  cases exec_systemEffect h with
  | kept _ hkept => exact .inl ⟨hkept.pout, hkept.digits⟩
  | outp port => exact .inr ⟨port, rfl, rfl⟩
  | ei | di | hlt | illegal => exact .inl ⟨rfl, rfl⟩

theorem step_outputs_cases {s t : State} (h : step s = .next t) :
    (t.pout = s.pout ∧ t.digits = s.digits) ∨ ∃ port, s.fetch = .outp port ∧ t = (s.portWrite port s.a).retire 2 := by
  obtain ⟨-, ht⟩ | ⟨n, -, -, ht⟩ | ⟨-, ht⟩ := step_cases h
  · cases ht
    exact .inl ⟨rfl, rfl⟩
  · cases ht
    exact .inl ⟨s.acceptInterrupt_pout n, s.acceptInterrupt_digits n⟩
  · exact exec_outputs_cases ht.symm

theorem step_wf_pout {s t : State} (hwf : PortLatches.wf s.pout = true) (h : step s = .next t) :
    PortLatches.wf t.pout = true := by
  obtain ⟨hpout, -⟩ | ⟨port, -, rfl⟩ := step_outputs_cases h
  · rwa [hpout]
  · exact PortLatches.wf_portWrite port s.a hwf

/-! ### Completion -/

theorem exec_completes (i : Instr) (s : State) : ∃ t, exec i s = .next t := by
  cases i <;> exact ⟨_, rfl⟩

theorem step_completes (s : State) : ∃ t, step s = .next t := by
  obtain ⟨-, h⟩ | ⟨n, -, -, h⟩ | ⟨-, h⟩ := step_cases (s := s) rfl
  · exact ⟨_, h⟩
  · exact ⟨_, h⟩
  · rw [h]
    exact exec_completes s.fetch s

end Sys2Proof.Machine

namespace Sys2Proof

open Sys2Proof.Machine

/-! ### The obligations -/

/-- Settles O46: a tick writes memory through the Bus alone, and the Bus drops writes to ROM. -/
theorem ticksNeverChangeRom : Obligations.TicksNeverChangeRom := by
  intro n s t hrun addr haddr
  have hrom : regionOf addr = .rom := (regionOf_eq_rom_iff addr).mpr haddr
  refine run_induction (P := fun s t => t.busRead addr = s.busRead addr) (fun _ => rfl) ?_ n s t hrun
  intro s u t hstep hrest
  obtain ⟨stores, hmem⟩ := step_writesMemory hstep
  rw [hrest, State.busRead_congr hmem, State.busRead_busWrites_rom hrom]

/-- Settles O47: memory changes by Bus writes, the input latches not at all, the output latches by OUT alone. -/
theorem tickKeepsCanonicalForm : Obligations.TickKeepsCanonicalForm := by
  intro s t hinv hstep
  obtain ⟨stores, hmem⟩ := step_writesMemory hstep
  refine ⟨?_, ?_, step_wf_pout hinv.pout hstep⟩
  · rw [hmem]
    exact Memory.wf_busWrites stores hinv.mem
  · rw [(step_hostInputsKept hstep).pin]
    exact hinv.pin

/-- Settles O49: `HostInputsKept` is kept by every tick and composes. -/
theorem ticksNeverChangeHostInputs : Obligations.TicksNeverChangeHostInputs := by
  intro n s t hrun
  obtain ⟨hkey, hpin, hext⟩ : HostInputsKept s t :=
    run_induction (P := HostInputsKept) (fun _ => ⟨rfl, rfl, rfl⟩)
      (fun _ _ _ hstep hrest => (step_hostInputsKept hstep).trans hrest) n s t hrun
  exact ⟨hkey, hpin, hext⟩

/-- Settles O50: a tick keeps latches and digits or is an OUT, which writes digits through the display ports alone. -/
theorem onlyOutDrivesPortsAndDisplay : Obligations.OnlyOutDrivesPortsAndDisplay := by
  intro s t hstep
  obtain ⟨hpout, hdigits⟩ | ⟨port, hfetch, rfl⟩ := step_outputs_cases hstep
  · exact ⟨fun h => absurd hpout h, fun h => absurd hdigits h⟩
  · refine ⟨fun _ => ⟨port, hfetch⟩, fun hchanged => ?_⟩
    by_contra hport
    rw [hfetch] at hport
    push Not at hport
    refine hchanged (State.portWrite_digits_of_ne ?_ ?_)
    · rintro rfl
      exact hport.1 rfl
    · rintro rfl
      exact hport.2 rfl

/-- Settles O8: acceptance keeps the run state, and of the instructions HLT and the illegal bytes alone write it. -/
theorem onlyHltAndIllegalHalt : Obligations.OnlyHltAndIllegalHalt := by
  intro s t hrun hstep
  obtain ⟨hstopped, -⟩ | ⟨n, -, haccept, ht⟩ | ⟨hexecutes, ht⟩ := step_cases hstep
  · exact absurd hrun hstopped
  · cases ht
    simp [hrun, haccept]
  · obtain ⟨hhalted, hi⟩ | ⟨hkept, hi⟩ := exec_run_cases ht.symm
    · exact ⟨.inr hhalted, fun _ => ⟨hexecutes.noInterrupt, hi⟩, fun _ => hhalted⟩
    · rw [hrun] at hkept
      exact ⟨.inl hkept, fun h => by simp [hkept] at h, fun h => absurd h.2 hi⟩

/-- Settles O45: the rows of the table; an instruction of no row writes no flag, by the operations its meaning is built
of. -/
theorem flagTable : Obligations.FlagTable := by
  intro i s t h
  cases i with
  | add | adc | adi | aci | sub | sbb | sui | sbi | cmp | cpi | daa => exact trivial
  | pop rp =>
    cases rp with
    | psw => exact trivial
    | bc | de | hl => cases h; rfl
  | inr | dcr => cases h; rfl
  | ana | ani => cases h; rfl
  | xra | xri | ora | ori => cases h; exact ⟨rfl, rfl⟩
  | rlc | rrc | ral | rar | dad | stc | cmc => cases h; rfl
  | _ => cases h; simp

/-- Settles O54: every completed instruction but EI ends in `retire` or `jumpTo`, which clear the shadow. -/
theorem eiShadowAfterEveryInstruction : Obligations.EiShadowAfterEveryInstruction := by
  intro i s t h
  cases i with
  | ei => cases h; simp [Function.comp_def]
  | illegal => cases h; rfl
  | pop => cases h; simp [State.pop16]
  | _ => cases h; simp

/-- Settles O7: no meaning of an instruction ends in a fault or a refusal. -/
theorem everyTickCompletes : Obligations.EveryTickCompletes := step_completes

end Sys2Proof
end


section
/-! PROOFS. The tick (`60_exceptions.md` sections 1 and 6): ticks in a row, what a tick reports, and the obligations O5,
O6, O9, O10. -/

namespace Sys2Proof.Machine

/-! ### Ticks in a row -/

theorem run_succ_of_step {s t : State} (h : step s = .next t) (n : Nat) :
    Sys2Proof.core.run (n + 1) s = Sys2Proof.core.run n t := by
  have hcore : Sys2Proof.core.step s = .next t := h
  simp [Host.Core.run, hcore]

/-! ### The report of a tick -/

/-- A tick that accepts an interrupt reports ok. -/
theorem tickResult_of_acceptable {s : State} {n : Fin 8} (hrun : s.run = .running) (h : s.acceptable = some n) :
    s.tickResult = .ok := by
  simp only [State.tickResult, State.tickAction, hrun, h]

/-- A tick that does not execute reports ok (`60_exceptions.md` R225). -/
theorem tickResult_of_not_executes {s : State} (h : ¬ s.Executes) : s.tickResult = .ok := by
  by_cases hrun : s.run = .running
  · cases haccept : s.acceptable with
    | none => exact absurd ⟨hrun, haccept⟩ h
    | some n => exact tickResult_of_acceptable hrun haccept
  · cases hr : s.run with
    | running => exact absurd hr hrun
    | halted | stopped => simp only [State.tickResult, State.tickAction, hr]

/-- An illegal instruction is fetched exactly where its byte stands and is in `ILLEGAL_SET` (`30_encoding.md` R77). -/
theorem fetch_eq_illegal_iff (s : State) (op : Byte) :
    s.fetch = .illegal op ↔ op = s.busRead s.pc ∧ Config.illegalSet.contains op = true := by
  constructor
  · intro h
    obtain ⟨hwf, hhead⟩ := fetch_faithful s
    rw [h] at hwf hhead
    exact ⟨Option.some.inj hhead, hwf⟩
  · rintro ⟨rfl, h⟩
    rw [State.fetch, decodeOpcode_of_illegal h]

theorem tickResult_eq_illegalOpcode_iff {s : State} (h : s.Executes) (addr : Word) (byte : Byte) :
    s.tickResult = .illegalOpcode addr byte ↔ addr = s.pc ∧ s.fetch = .illegal byte := by
  simp only [State.tickResult, State.tickAction, h.run, h.noInterrupt]
  cases s.fetch <;> simp [eq_comm]

/-- Only an illegal byte is reported. -/
theorem tickResult_of_fetch {s : State} (h : ∀ op, s.fetch ≠ .illegal op) : s.tickResult = .ok := by
  by_cases hexecutes : s.Executes
  · cases hr : s.tickResult with
    | ok => rfl
    | illegalOpcode addr byte => exact absurd ((tickResult_eq_illegalOpcode_iff hexecutes _ _).mp hr).2 (h byte)
  · exact tickResult_of_not_executes hexecutes

end Sys2Proof.Machine

namespace Sys2Proof

open Sys2Proof.Machine

/-! ### The obligations -/

/-- Settles O10: a tick that executes reports by the fetched instruction, every other reports ok. -/
theorem reportIsExactlyTheIllegalFetch : Obligations.ReportIsExactlyTheIllegalFetch := by
  intro s addr byte
  by_cases hexecutes : s.Executes
  · rw [tickResult_eq_illegalOpcode_iff hexecutes, fetch_eq_illegal_iff]
    exact ⟨fun h => ⟨hexecutes, h⟩, fun h => h.2⟩
  · rw [tickResult_of_not_executes hexecutes]
    exact ⟨fun h => TickResult.noConfusion h, fun h => absurd h.1 hexecutes⟩

/-- Settles O5: what the three bytes at PC decode to is what is fetched. -/
theorem tickExecutesDecodedInstruction : Obligations.TickExecutesDecodedInstruction := by
  intro s i rest hexecutes hdecode
  obtain ⟨rest', hfetch⟩ := s.decode_at_pc
  rw [hfetch] at hdecode
  injection hdecode with hi
  rw [step_of_executes hexecutes, hi]

/-- Settles O6, by induction on the number of ticks. -/
theorem notRunningTicksDoNothing : Obligations.NotRunningTicksDoNothing := by
  intro n s hrun
  refine ⟨?_, tickResult_of_not_executes fun h => hrun h.run⟩
  induction n with
  | zero => rfl
  | succ n ih => rw [run_succ_of_step (step_of_not_running hrun), ih]

/-- Settles O9: an illegal byte at PC is fetched as the illegal instruction, whose meaning takes the exception. -/
theorem illegalByteHalts : Obligations.IllegalByteHalts := by
  refine ⟨fun _ _ => rfl, fun s hexecutes hbyte => ?_⟩
  have hcontains : Config.illegalSet.contains (s.busRead s.pc) = true := List.contains_iff_mem.mpr hbyte
  have hfetch := (fetch_eq_illegal_iff s _).mpr ⟨rfl, hcontains⟩
  refine ⟨?_, (tickResult_eq_illegalOpcode_iff hexecutes _ _).mpr ⟨rfl, hfetch⟩⟩
  rw [step_of_executes hexecutes, hfetch]
  rfl

end Sys2Proof
end


section
/-! PROOFS. INTE and the keyboard as what hardly any instruction reads: every meaning commutes with a change of both,
and the obligations O51, O52. -/

namespace Sys2Proof.Machine

/-! ### INTE and the keyboard -/

/-- The state with another INTE and another key: what hardly any instruction reads. -/
def State.withHidden (s : State) (inte : Bool) (key : Option Byte) : State := { s with inte := inte, key := key }

section WithHidden

variable (s : State) (inte : Bool) (key : Option Byte)

/-- A function of the state that commutes with a change of INTE and with a change of the key commutes with both. -/
theorem commutes_withHidden {f : State → State}
    (hinte : ∀ (u : State) (b : Bool), f { u with inte := b } = { f u with inte := b })
    (hkey : ∀ (u : State) (k : Option Byte), f { u with key := k } = { f u with key := k }) :
    f (s.withHidden inte key) = (f s).withHidden inte key :=
  (hkey { s with inte := inte } key).trans (congrArg (fun u : State => { u with key := key }) (hinte s inte))

theorem State.read8_withHidden (src : Operand8) : (s.withHidden inte key).read8 src = s.read8 src :=
  (State.read8_withKey { s with inte := inte } key src).trans (State.read8_withInte s inte src)

theorem State.getPair_withHidden (rp : RegPair) : (s.withHidden inte key).getPair rp = s.getPair rp :=
  (State.getPair_withKey { s with inte := inte } key rp).trans (State.getPair_withInte s inte rp)

theorem State.getStackPair_withHidden (rp : StackPair) : (s.withHidden inte key).getStackPair rp = s.getStackPair rp :=
  (State.getStackPair_withKey { s with inte := inte } key rp).trans (State.getStackPair_withInte s inte rp)

theorem State.getIndexPair_withHidden (rp : IndexPair) : (s.withHidden inte key).getIndexPair rp = s.getIndexPair rp :=
  (State.getIndexPair_withKey { s with inte := inte } key rp).trans (State.getIndexPair_withInte s inte rp)

theorem State.write8_withHidden (dst : Operand8) (v : Byte) :
    (s.withHidden inte key).write8 dst v = (s.write8 dst v).withHidden inte key :=
  commutes_withHidden (f := fun u => u.write8 dst v) s inte key (fun u b => u.write8_withInte b dst v)
    (fun u k => u.write8_withKey k dst v)

theorem State.write8Flags_withHidden (dst : Operand8) (r : Byte × Flags) :
    (s.withHidden inte key).write8Flags dst r = (s.write8Flags dst r).withHidden inte key :=
  commutes_withHidden (f := fun u => u.write8Flags dst r) s inte key (fun u b => u.write8Flags_withInte b dst r)
    (fun u k => u.write8Flags_withKey k dst r)

theorem State.setPair_withHidden (rp : RegPair) (v : Word) :
    (s.withHidden inte key).setPair rp v = (s.setPair rp v).withHidden inte key :=
  commutes_withHidden (f := fun u => u.setPair rp v) s inte key (fun u b => u.setPair_withInte b rp v)
    (fun u k => u.setPair_withKey k rp v)

theorem State.setStackPair_withHidden (rp : StackPair) (v : Word) :
    (s.withHidden inte key).setStackPair rp v = (s.setStackPair rp v).withHidden inte key :=
  commutes_withHidden (f := fun u => u.setStackPair rp v) s inte key (fun u b => u.setStackPair_withInte b rp v)
    (fun u k => u.setStackPair_withKey k rp v)

theorem State.busWrite_withHidden (addr : Word) (v : Byte) :
    (s.withHidden inte key).busWrite addr v = (s.busWrite addr v).withHidden inte key :=
  commutes_withHidden (f := fun u => u.busWrite addr v) s inte key (fun u b => u.busWrite_withInte b addr v)
    (fun u k => u.busWrite_withKey k addr v)

theorem State.memWrite16_withHidden (addr v : Word) :
    (s.withHidden inte key).memWrite16 addr v = (s.memWrite16 addr v).withHidden inte key :=
  commutes_withHidden (f := fun u => u.memWrite16 addr v) s inte key (fun u b => u.memWrite16_withInte b addr v)
    (fun u k => u.memWrite16_withKey k addr v)

theorem State.push16_withHidden (v : Word) :
    (s.withHidden inte key).push16 v = (s.push16 v).withHidden inte key :=
  commutes_withHidden (f := fun u => u.push16 v) s inte key (fun u b => u.push16_withInte b v)
    (fun u k => u.push16_withKey k v)

theorem State.callIf_withHidden (cond : Cond) (addr : Word) :
    (s.withHidden inte key).callIf cond addr = (s.callIf cond addr).withHidden inte key :=
  commutes_withHidden (f := fun u => u.callIf cond addr) s inte key (fun u b => u.callIf_withInte b cond addr)
    (fun u k => u.callIf_withKey k cond addr)

theorem State.portWrite_withHidden (port v : Byte) :
    (s.withHidden inte key).portWrite port v = (s.portWrite port v).withHidden inte key :=
  commutes_withHidden (f := fun u => u.portWrite port v) s inte key (fun u b => u.portWrite_withInte b port v)
    (fun u k => u.portWrite_withKey k port v)

theorem State.jumpIf_withHidden (cond : Cond) (addr : Word) :
    (s.withHidden inte key).jumpIf cond addr = (s.jumpIf cond addr).withHidden inte key := by
  unfold State.jumpIf
  rw [apply_ite (State.withHidden · inte key)]
  rfl

theorem State.returnIf_withHidden (cond : Cond) :
    (s.withHidden inte key).returnIf cond = (s.returnIf cond).withHidden inte key := by
  unfold State.returnIf
  rw [apply_ite (State.withHidden · inte key)]
  rfl

theorem State.portRead_withHidden {port : Byte} (h : port ≠ 0x06 ∨ key = s.key) :
    (s.withHidden inte key).portRead port = s.portRead port := by
  obtain hport | rfl := h
  · exact (if_neg hport).trans (if_neg hport).symm
  · rfl

end WithHidden

/-- INTE after an instruction: EI and DI set it to a constant. -/
def inteAfter (inte : Bool) : Instr → Bool
  | .ei => true
  | .di => false
  | _ => inte

/-- Only IN from port 0x06 reads the key and no instruction reads INTE: every other meaning commutes with a change of
both. -/
theorem exec_withHidden {i : Instr} {s : State} {key : Option Byte} (h : i ≠ .inp 0x06 ∨ key = s.key) (inte : Bool) :
    ∃ t, exec i s = .next t ∧ exec i (s.withHidden inte key) = .next (t.withHidden (inteAfter inte i) key) := by
  cases i with
  | mov dst src =>
    refine ⟨_, rfl, ?_⟩
    simp only [exec, execMov, State.read8_withHidden, State.write8_withHidden]
    rfl
  | mvi dst d8 =>
    refine ⟨_, rfl, ?_⟩
    simp only [exec, execMvi, State.write8_withHidden]
    rfl
  | inr dst | dcr dst =>
    refine ⟨_, rfl, ?_⟩
    simp only [exec, execInr, execDcr, State.read8_withHidden, State.write8Flags_withHidden]
    rfl
  | add src | adc src | sub src | sbb src | ana src | xra src | ora src | cmp src =>
    refine ⟨_, rfl, ?_⟩
    simp only [exec, execAdd, execAdc, execSub, execSbb, execAna, execXra, execOra, execCmp, State.read8_withHidden]
    rfl
  | lxi rp | inx rp | dcx rp | dad rp =>
    refine ⟨_, rfl, ?_⟩
    simp only [exec, execLxi, execInx, execDcx, execDad, State.getPair_withHidden, State.setPair_withHidden]
    rfl
  | sta | stax | ldax =>
    refine ⟨_, rfl, ?_⟩
    simp only [exec, execSta, execStax, execLdax, State.getIndexPair_withHidden, State.busWrite_withHidden]
    rfl
  | shld | xthl =>
    refine ⟨_, rfl, ?_⟩
    simp only [exec, execShld, execXthl, State.memWrite16_withHidden]
    rfl
  | push | call | rst =>
    refine ⟨_, rfl, ?_⟩
    simp only [exec, execPush, execCall, execRst, State.callTo, State.getStackPair_withHidden, State.push16_withHidden]
    rfl
  | pop rp =>
    have hload := s.pop16.2.setStackPair_withHidden inte key rp (s.memRead16 s.sp)
    exact ⟨_, exec_pop rp s, (exec_pop rp _).trans
      (congrArg (fun u : State => Host.Outcome.next (u.retire 1)) hload)⟩
  | jnz | jz | jnc | jc | jpo | jpe | jp | jm => exact ⟨_, rfl, congrArg _ (s.jumpIf_withHidden inte key _ _)⟩
  | cnz | cz | cnc | cc | cpo | cpe | cp | cm => exact ⟨_, rfl, congrArg _ (s.callIf_withHidden inte key _ _)⟩
  | rnz | rz | rnc | rc | rpo | rpe | rp | rm => exact ⟨_, rfl, congrArg _ (s.returnIf_withHidden inte key _)⟩
  | inp port =>
    have hread := s.portRead_withHidden inte key (h.imp_left (mt (congrArg Instr.inp)))
    refine ⟨_, rfl, ?_⟩
    simp only [exec, execInp, hread]
    rfl
  | outp port =>
    refine ⟨_, rfl, ?_⟩
    simp only [exec, execOutp, State.portWrite_withHidden]
    rfl
  | _ => exact ⟨_, rfl, rfl⟩

/-- INTE after an instruction: `exec_withHidden` with the state's own INTE and key. -/
theorem exec_inte {i : Instr} {s t : State} (h : exec i s = .next t) : t.inte = inteAfter s.inte i := by
  obtain ⟨u, hu, hu'⟩ := exec_withHidden (i := i) (s := s) (key := s.key) (.inr rfl) s.inte
  cases h.symm.trans hu
  injection h.symm.trans hu' with heq
  exact congrArg State.inte heq

theorem State.acceptable_withHidden {s : State} {inte : Bool} (h : s.intExt = none ∨ inte = s.inte)
    (key : Option Byte) : (s.withHidden inte key).acceptable = s.acceptable := by
  obtain hext | rfl := h
  · simp only [State.acceptable, State.withHidden, hext]
  · rfl

theorem State.tickResult_withHidden {s : State} {inte : Bool} (h : s.intExt = none ∨ inte = s.inte)
    (key : Option Byte) : (s.withHidden inte key).tickResult = s.tickResult := by
  unfold State.tickResult State.tickAction
  rw [State.acceptable_withHidden h]
  rfl

theorem State.acceptInterrupt_withHidden (s : State) (inte : Bool) (key : Option Byte) (n : Fin 8) :
    (s.withHidden inte key).acceptInterrupt n = (s.acceptInterrupt n).withHidden false key := by
  simp only [State.acceptInterrupt]
  rw [show (s.withHidden inte key).pc = s.pc from rfl, State.push16_withHidden]
  rfl

/-- A tick commutes with a change of INTE and the key: of INTE where no interrupt can be accepted, of the key where it
does not execute IN from port 0x06. -/
theorem step_withHidden {s : State} {inte : Bool} {key : Option Byte} (hinte : s.intExt = none ∨ inte = s.inte)
    (hkey : s.fetch ≠ .inp 0x06 ∨ key = s.key) :
    ∃ t inte', step s = .next t ∧ step (s.withHidden inte key) = .next (t.withHidden inte' key) ∧
      (inte = s.inte → inte' = t.inte) := by
  have hacceptable := State.acceptable_withHidden hinte key
  obtain ⟨hrun, h⟩ | ⟨n, hrun, hn, h⟩ | ⟨hexecutes, h⟩ := step_cases (s := s) rfl
  · exact ⟨s, inte, h, step_of_not_running hrun, id⟩
  · refine ⟨_, false, h, ?_, fun _ => rfl⟩
    rw [step_of_acceptable (s := s.withHidden inte key) hrun (hacceptable.trans hn), State.acceptInterrupt_withHidden]
  · obtain ⟨t, ht, ht'⟩ := exec_withHidden hkey inte
    refine ⟨t, inteAfter inte s.fetch, h.trans ht, ?_, fun hsame => ?_⟩
    · have hexecutes' : (s.withHidden inte key).Executes :=
        ⟨hexecutes.run, hacceptable.trans hexecutes.noInterrupt⟩
      exact (step_of_executes hexecutes').trans ht'
    · rw [hsame, exec_inte ht]

end Sys2Proof.Machine

namespace Sys2Proof

open Sys2Proof.Machine

/-! ### The obligations -/

/-- Settles O51, by induction on the number of ticks: no tick makes an interrupt input. -/
theorem inteIsUnobservable : Obligations.InteIsUnobservable := by
  intro n
  induction n with
  | zero => exact fun s inte hext => ⟨s, inte, rfl, rfl, State.tickResult_withHidden (.inl hext) s.key⟩
  | succ n ih =>
    intro s inte hext
    obtain ⟨u, inte', hu, hu', -⟩ := step_withHidden (inte := inte) (.inl hext) (.inr rfl)
    have hkept := step_hostInputsKept hu
    have hextU : u.intExt = none := by simpa [hext] using hkept.extension
    have hsame : u.withHidden inte' s.key = { u with inte := inte' } := by
      rw [← hkept.key]
      rfl
    rw [hsame] at hu'
    obtain ⟨t, inte'', ht, ht', hreport⟩ := ih u inte' hextU
    exact ⟨t, inte'', (run_succ_of_step hu n).trans ht, (run_succ_of_step hu' n).trans ht', hreport⟩

/-- Settles O52: the tick commutes with the change of the key, and INTE is the same in both runs. -/
theorem keyReachesOnlyIn : Obligations.KeyReachesOnlyIn := by
  intro s key hfetch
  obtain ⟨t, inte, ht, ht', hinte⟩ := step_withHidden (key := key) (.inr rfl) (.inl hfetch)
  rw [hinte rfl] at ht'
  exact ⟨t, ht, ht'⟩

end Sys2Proof
end


section
/-! PROOFS. Subtraction, comparison, decrement, decimal adjustment and AND (`41_arithmetic.md`, `42_logical.md`): what
each computation gives, and the obligations O17, O18, O20, O24 to O26. -/

namespace Sys2Proof.Machine

/-! ### Subtraction and comparison (`41_arithmetic.md` section 3, `42_logical.md` section 5) -/

/-- Everything a subtraction from A does, for any operand and borrow in (`41_arithmetic.md` R120). -/
theorem subFlags_setAccFlags_sub8_retire (s : State) (b : Byte) (c : Bool) (n : Word) :
    AccumulatorOnly n s ((s.setAccFlags (sub8 s.a b c)).retire n) ∧
      SubFlags s.a.toNat b.toNat c.toNat ((s.setAccFlags (sub8 s.a b c)).retire n).a
        ((s.setAccFlags (sub8 s.a b c)).retire n).flags :=
  ⟨accumulatorOnly_setAccFlags_retire s _ n, sub8_spec s.a b c⟩

theorem sub8_false_z_iff (a b : Byte) : (sub8 a b false).2.z = true ↔ a = b := by
  have hspec := sub8_spec a b false
  have ha := a.isLt
  have hb := b.isLt
  have hvalue := hspec.value
  rw [hspec.zsp.z, ← BitVec.toNat_inj, hvalue, Bool.toNat_false]
  omega

theorem sub8_false_cy_iff (a b : Byte) : (sub8 a b false).2.cy = true ↔ a.toNat < b.toNat :=
  (sub8_spec a b false).cy

/-! ### Decrement (`41_arithmetic.md` R136) -/

theorem dec8_fst (f : Flags) (v : Byte) : (dec8 f v).1 = BitVec.ofNat 8 (v.toNat + 255) := by
  apply BitVec.eq_of_toNat_eq
  rw [dec8, BitVec.toNat_sub, BitVec.toNat_ofNat, Nat.add_comm]
  rfl

theorem toNat_dec8_fst (f : Flags) (v : Byte) : (dec8 f v).1.toNat = (v.toNat + 255) % 256 := by
  rw [dec8_fst, BitVec.toNat_ofNat]

theorem zspOf_dec8 (f : Flags) (v : Byte) : ZspOf (dec8 f v).2 (dec8 f v).1 := zspOf_setZSP _ _

theorem dec8_ac_iff (f : Flags) (v : Byte) : (dec8 f v).2.ac = true ↔ v.toNat % 16 ≠ 0 :=
  decide_eq_true_iff

theorem dec8_cy (f : Flags) (v : Byte) : (dec8 f v).2.cy = f.cy := rfl

/-! ### DAA (`41_arithmetic.md` section 6) -/

/-- The sum of A and what step 1 of DAA adds. -/
def daaSum1 (f : Flags) (a : Byte) : Nat := a.toNat + if f.ac = true ∨ a.toNat % 16 > 9 then 6 else 0

/-- Step 2 corrects the step-1 sum exactly when the model's condition on A's own nibbles holds: step 1 carries into the
high nibble only when the low nibble is above 9. -/
theorem daaHigh_iff (f : Flags) (a : Byte) :
    (f.cy = true ∨ highNibble a > 9 ∨ (highNibble a ≥ 9 ∧ lowNibble a > 9)) ↔ (f.cy = true ∨ daaSum1 f a / 16 > 9) := by
  refine or_congr_right ?_
  unfold daaSum1 highNibble lowNibble
  split_ifs with hlow <;> omega

/-- The correction is that of the two steps. -/
theorem daaCorrection_eq (f : Flags) (a : Byte) :
    daaCorrection f a = (if f.ac = true ∨ a.toNat % 16 > 9 then 6 else 0) +
      if f.cy = true ∨ daaSum1 f a / 16 > 9 then 0x60 else 0 := by
  simp only [daaCorrection, daaHigh_iff]
  rfl

/-- A after DAA. -/
theorem toNat_daa8_fst (f : Flags) (a : Byte) :
    (daa8 f a).1.toNat = (daaSum1 f a + if f.cy = true ∨ daaSum1 f a / 16 > 9 then 0x60 else 0) % 256 := by
  rw [daa8, BitVec.toNat_ofNat, daaCorrection_eq, ← Nat.add_assoc]
  rfl

theorem zspOf_daa8 (f : Flags) (a : Byte) : ZspOf (daa8 f a).2 (daa8 f a).1 := zspOf_setZSP _ _

/-- AC after DAA is the carry out of bit 3 of step 1: what step 2 adds has no low nibble. -/
theorem daa8_ac_iff (f : Flags) (a : Byte) :
    (daa8 f a).2.ac = true ↔ (f.ac = true ∨ a.toNat % 16 > 9) ∧ a.toNat % 16 + 6 > 15 := by
  rw [daa8, Flags.setZSP_ac, decide_eq_true_iff, daaCorrection_eq, lowNibble]
  split_ifs with hlow hhigh <;> omega

/-- CY after DAA: step 2 corrects, and it corrects whenever CY was set. -/
theorem daa8_cy_iff (f : Flags) (a : Byte) : (daa8 f a).2.cy = true ↔ f.cy = true ∨ daaSum1 f a / 16 > 9 := by
  rw [daa8, Flags.setZSP_cy, Bool.or_eq_true, decide_eq_true_iff, daaCorrection_eq]
  by_cases hhigh : f.cy = true ∨ daaSum1 f a / 16 > 9
  · rw [if_pos hhigh]
    exact iff_of_true (.inr (Nat.le_add_left _ _)) hhigh
  · rw [if_neg hhigh]
    refine iff_of_false ?_ hhigh
    rintro (hcy | hcorrection)
    · exact hhigh (.inl hcy)
    · split_ifs at hcorrection <;> omega

/-! ### Packed BCD (`41_arithmetic.md` section 6) -/

/-- The two corrections on the digits of a sum of two numbers below 100. -/
theorem bcd_correction : ∀ d1 ≤ 18, ∀ d0 ≤ 18,
    ((16 * d1 + d0) % 256 + (if d0 > 9 then 6 else 0) + if 10 * d1 + d0 > 99 then 0x60 else 0) % 256 =
      16 * ((10 * d1 + d0) % 100 / 10) + (10 * d1 + d0) % 10 := by decide

section PackedBcd

variable {x1 x0 y1 y0 : Nat} {a b : Byte}

/-- After the addition of two packed BCD bytes, step 1 of DAA corrects exactly when the low digits carry. -/
theorem add8_bcd_low_iff (hx0 : x0 < 10) (hy0 : y0 < 10) (ha : a.toNat = 16 * x1 + x0) (hb : b.toNat = 16 * y1 + y0) :
    ((add8 a b false).2.ac = true ∨ (add8 a b false).1.toNat % 16 > 9) ↔ x0 + y0 > 9 := by
  obtain ⟨hvalue, -, hac, -⟩ := add8_spec a b false
  rw [hac, hvalue, ha, hb, Bool.toNat_false]
  omega

theorem daaSum1_add8_bcd (hx0 : x0 < 10) (hy0 : y0 < 10) (ha : a.toNat = 16 * x1 + x0) (hb : b.toNat = 16 * y1 + y0) :
    daaSum1 (add8 a b false).2 (add8 a b false).1 =
      (16 * (x1 + y1) + (x0 + y0)) % 256 + if x0 + y0 > 9 then 6 else 0 := by
  have hvalue : (add8 a b false).1.toNat = (16 * (x1 + y1) + (x0 + y0)) % 256 := by
    rw [(add8_spec a b false).value, ha, hb, Bool.toNat_false]
    omega
  simp only [daaSum1, add8_bcd_low_iff hx0 hy0 ha hb]
  rw [hvalue]

/-- After the addition of two packed BCD bytes, step 2 of DAA corrects exactly when the numbers carry. -/
theorem add8_bcd_high_iff (hx0 : x0 < 10) (hy0 : y0 < 10) (ha : a.toNat = 16 * x1 + x0)
    (hb : b.toNat = 16 * y1 + y0) :
    ((add8 a b false).2.cy = true ∨ daaSum1 (add8 a b false).2 (add8 a b false).1 / 16 > 9) ↔
      10 * (x1 + y1) + (x0 + y0) > 99 := by
  rw [(add8_spec a b false).cy, daaSum1_add8_bcd hx0 hy0 ha hb, ha, hb, Bool.toNat_false]
  split_ifs with hlow <;> omega

/-- DAA of a sum of two packed BCD bytes, with the flags of that addition, gives the two digits of the sum and CY the
hundreds. -/
theorem daa8_add8_bcd (hx1 : x1 < 10) (hy1 : y1 < 10) (hx0 : x0 < 10) (hy0 : y0 < 10)
    (ha : a.toNat = 16 * x1 + x0) (hb : b.toNat = 16 * y1 + y0) :
    (daa8 (add8 a b false).2 (add8 a b false).1).1.toNat =
        16 * ((10 * (x1 + y1) + (x0 + y0)) % 100 / 10) + (10 * (x1 + y1) + (x0 + y0)) % 10 ∧
      ((daa8 (add8 a b false).2 (add8 a b false).1).2.cy = true ↔ 10 * (x1 + y1) + (x0 + y0) > 99) := by
  rw [daa8_cy_iff, toNat_daa8_fst]
  simp only [add8_bcd_high_iff hx0 hy0 ha hb]
  rw [daaSum1_add8_bcd hx0 hy0 ha hb]
  exact ⟨bcd_correction (x1 + y1) (by omega) (x0 + y0) (by omega), trivial⟩

end PackedBcd

/-! ### AND (`42_logical.md` R150) -/

/-- Everything `and8` gives, with `AND_AC_RULE` as decided (D19). -/
theorem and8_spec (a b : Byte) :
    (and8 a b).1 = a &&& b ∧ ZspOf (and8 a b).2 (and8 a b).1 ∧ (and8 a b).2.cy = false ∧
      ((and8 a b).2.ac = true ↔ a.getLsbD 3 = true ∨ b.getLsbD 3 = true) := by
  refine ⟨rfl, zspOf_setZSP _ _, rfl, ?_⟩
  rw [← Bool.or_eq_true, ← BitVec.getLsbD_or]
  rfl

end Sys2Proof.Machine

namespace Sys2Proof

open Sys2Proof.Machine

/-! ### The obligations -/

/-- Settles O17: each of these meanings is `sub8` into A and the flags, then `retire`. -/
theorem subtractFromAccumulator : Obligations.SubtractFromAccumulator := by
  intro src d8 s
  rw [← State.read8_eq]
  refine ⟨?sub, ?sui, ?sbb, ?sbi⟩
  case sub => exact ⟨_, rfl, subFlags_setAccFlags_sub8_retire s (s.read8 src) false 1⟩
  case sui => exact ⟨_, rfl, subFlags_setAccFlags_sub8_retire s d8 false 2⟩
  case sbb => exact ⟨_, rfl, subFlags_setAccFlags_sub8_retire s (s.read8 src) s.flags.cy 1⟩
  case sbi => exact ⟨_, rfl, subFlags_setAccFlags_sub8_retire s d8 s.flags.cy 2⟩

/-- Settles O18: each of these meanings writes the flags of `sub8` and nothing else, then retires. -/
theorem compareWithAccumulator : Obligations.CompareWithAccumulator := by
  intro src d8 s
  rw [← State.read8_eq]
  refine ⟨?cmp, ?cpi⟩
  case cmp =>
    exact ⟨_, _, rfl, accumulatorOnly_withFlags_retire s _ 1, rfl, sub8_spec s.a (s.read8 src) false,
      sub8_false_z_iff s.a (s.read8 src), sub8_false_cy_iff s.a (s.read8 src)⟩
  case cpi =>
    exact ⟨_, _, rfl, accumulatorOnly_withFlags_retire s _ 2, rfl, sub8_spec s.a d8 false, sub8_false_z_iff s.a d8,
      sub8_false_cy_iff s.a d8⟩

/-- Settles O20: DCR writes `dec8` of the operand and the flags, then retires. -/
theorem decrement : Obligations.Decrement := by
  intro r s
  refine ⟨⟨_, rfl, ?value, ?zsp, dec8_ac_iff s.flags (s.getReg r), dec8_cy s.flags (s.getReg r),
    regsKept_write8Flags_reg_retire s r _ 1, by simp, memKept_write8Flags_reg_retire s r _ 1, by simp,
    systemKept_write8Flags_retire s (.reg r) _ 1⟩, ?m⟩
  case value =>
    rw [getReg_write8Flags_reg_retire]
    exact toNat_dec8_fst s.flags (s.getReg r)
  case zsp =>
    rw [getReg_write8Flags_reg_retire]
    exact zspOf_dec8 s.flags (s.getReg r)
  case m =>
    exact ⟨_, (dec8 s.flags (s.busRead s.hl)).1, rfl, dec8_fst _ _, zspOf_dec8 _ _, dec8_ac_iff _ _, dec8_cy _ _,
      memAfter_write8Flags_m_retire s _ 1, regsKept_write8Flags_m_retire s _ 1, by simp, by simp,
      systemKept_write8Flags_retire s .m _ 1⟩

/-- Settles O24: the model's one correction is that of the two steps. -/
theorem decimalAdjustTwoSteps : Obligations.DecimalAdjustTwoSteps := by
  intro s
  exact ⟨_, rfl, accumulatorOnly_setAccFlags_retire s _ 1, toNat_daa8_fst s.flags s.a, zspOf_daa8 s.flags s.a,
    daa8_ac_iff s.flags s.a, daa8_cy_iff s.flags s.a⟩

/-- Settles O25: ADI leaves the sum with its flags, which DAA corrects. -/
theorem decimalAdjustAddsBcd : Obligations.DecimalAdjustAddsBcd := by
  intro x y s hx hy ha
  have hb : (BitVec.ofNat 8 (16 * (y / 10) + y % 10)).toNat = 16 * (y / 10) + y % 10 := by
    rw [BitVec.toNat_ofNat]
    omega
  obtain ⟨hvalue, hcarry⟩ := daa8_add8_bcd (by omega) (by omega) (Nat.mod_lt x (by decide)) (Nat.mod_lt y (by decide))
    ha hb
  have hsum : 10 * (x / 10 + y / 10) + (x % 10 + y % 10) = x + y := by omega
  rw [hsum] at hvalue hcarry
  exact ⟨_, rfl, hvalue, hcarry⟩

/-- Settles O26: each of these meanings is `and8` into A and the flags, then `retire`. -/
theorem andIntoAccumulator : Obligations.AndIntoAccumulator := by
  intro src d8 s
  rw [← State.read8_eq]
  refine ⟨?ana, ?ani⟩
  case ana => exact ⟨_, rfl, accumulatorOnly_setAccFlags_retire s _ 1, and8_spec s.a (s.read8 src)⟩
  case ani => exact ⟨_, rfl, accumulatorOnly_setAccFlags_retire s _ 2, and8_spec s.a d8⟩

end Sys2Proof
end


section
/-! PROOFS. Repeated rotations (`42_logical.md` section 6): a rotation turns a ring of bits by one place; the
obligation O29. -/

namespace Sys2Proof.Machine

/-! ### Repeated rotations (`42_logical.md` section 6) -/

/-- The bits of a byte, bit 7 first. -/
def byteBits (v : Byte) : List Bool :=
  [v.getLsbD 7, v.getLsbD 6, v.getLsbD 5, v.getLsbD 4, v.getLsbD 3, v.getLsbD 2, v.getLsbD 1, v.getLsbD 0]

theorem byteBits_inj {v w : Byte} (h : byteBits v = byteBits w) : v = w := by
  apply BitVec.eq_of_getLsbD_eq
  intro i hi
  simp only [byteBits, List.cons.injEq] at h
  obtain ⟨h7, h6, h5, h4, h3, h2, h1, h0, -⟩ := h
  interval_cases i <;> assumption

/-- A byte moved left by one bit with a bit put in at the bottom. -/
theorem byteBits_shiftLeft_or_bitByte (v : Byte) (c : Bool) :
    byteBits ((v <<< 1) ||| bitByte c) = (byteBits v).tail ++ [c] := by
  cases c <;> simp [byteBits, bitByte]

/-- A byte moved right by one bit with a bit put in at the top. -/
theorem byteBits_shiftRight_or_bitByte (v : Byte) (c : Bool) :
    byteBits ((v >>> 1) ||| (bitByte c <<< 7)) = c :: (byteBits v).dropLast := by
  cases c <;> simp [byteBits, bitByte]

/-- The ring that RLC turns. -/
def accBits (s : State) : List Bool := byteBits s.a

/-- The ring that RAL and RAR turn: CY and the bits of A. -/
def carryBits (s : State) : List Bool := s.flags.cy :: byteBits s.a

/-- A ring of bits is turned left by `k` places `n` times, PC is after n one-byte instructions, and of the flags only CY
is written. -/
structure Turned (ring : State → List Bool) (k n : Nat) (s t : State) : Prop where
  bits : ring t = (ring s).rotate (k * n)
  flags : { t.flags with cy := s.flags.cy } = s.flags
  pc : t.pc = s.pc + BitVec.ofNat 16 n

theorem Turned.succ {ring : State → List Bool} {k n : Nat} {s t u : State} (h : Turned ring k 1 s t)
    (h' : Turned ring k n t u) : Turned ring k (n + 1) s u where
  bits := by rw [h'.bits, h.bits, List.rotate_rotate, Nat.mul_one, Nat.mul_succ, Nat.add_comm]
  flags := by
    rw [← h.flags, ← h'.flags]
  pc := by rw [h'.pc, h.pc, BitVec.add_assoc, ← BitVec.ofNat_add, Nat.add_comm 1 n]

theorem exists_execAll_replicate {ring : State → List Bool} {k : Nat} {i : Instr}
    (h : ∀ s, ∃ t, exec i s = .next t ∧ Turned ring k 1 s t) (n : Nat) (s : State) :
    ∃ t, execAll (List.replicate n i) s = some t ∧ Turned ring k n s t := by
  induction n generalizing s with
  | zero => exact ⟨s, rfl, (List.rotate_zero _).symm, rfl, (BitVec.add_zero _).symm⟩
  | succ n ih =>
    obtain ⟨t, ht, hturn⟩ := h s
    obtain ⟨u, hu, hturns⟩ := ih t
    exact ⟨u, by simp only [List.replicate_succ, execAll, ht, hu], hturn.succ hturns⟩

theorem ral_turned (s : State) : ∃ t, exec .ral s = .next t ∧ Turned carryBits 1 1 s t :=
  ⟨_, rfl, congrArg (s.a.getLsbD 7 :: ·) (byteBits_shiftLeft_or_bitByte s.a s.flags.cy), rfl, rfl⟩

/-- One place to the right is eight places to the left in a ring of nine. -/
theorem rar_turned (s : State) : ∃ t, exec .rar s = .next t ∧ Turned carryBits 8 1 s t :=
  ⟨_, rfl, congrArg (s.a.getLsbD 0 :: ·) (byteBits_shiftRight_or_bitByte s.a s.flags.cy), rfl, rfl⟩

theorem rlc_turned (s : State) : ∃ t, exec .rlc s = .next t ∧ Turned accBits 1 1 s t :=
  ⟨_, rfl, byteBits_shiftLeft_or_bitByte s.a (s.a.getLsbD 7), rfl, rfl⟩

/-- A whole number of turns of the nine bits restores A and the flags. -/
theorem Turned.restored {k : Nat} {s t : State} (h : Turned carryBits k 9 s t) : t.a = s.a ∧ t.flags = s.flags := by
  have hbits : carryBits t = carryBits s := by
    rw [h.bits, Nat.mul_comm]
    exact List.rotate_length_mul (carryBits s) k
  obtain ⟨hcy, hacc⟩ := List.cons_eq_cons.mp hbits
  refine ⟨byteBits_inj hacc, ?_⟩
  rw [← h.flags, ← hcy]

end Sys2Proof.Machine

namespace Sys2Proof

open Sys2Proof.Machine

/-! ### The obligations -/

/-- Settles O29: a rotation turns a ring of nine bits, RLC one of eight, and so many turns restore it. -/
theorem fullRotationRestores : Obligations.FullRotationRestores := by
  intro s
  refine ⟨?ral, ?rar, ?rlc⟩
  case ral =>
    obtain ⟨t, ht, hturned⟩ := exists_execAll_replicate ral_turned 9 s
    exact ⟨t, ht, hturned.restored.1, hturned.restored.2, hturned.pc⟩
  case rar =>
    obtain ⟨t, ht, hturned⟩ := exists_execAll_replicate rar_turned 9 s
    exact ⟨t, ht, hturned.restored.1, hturned.restored.2, hturned.pc⟩
  case rlc =>
    obtain ⟨t, ht, hturned⟩ := exists_execAll_replicate rlc_turned 8 s
    exact ⟨t, ht, byteBits_inj (hturned.bits.trans (List.rotate_length (accBits s))), hturned.pc⟩

end Sys2Proof
end


section
/-! PROOFS. The stack (`43_branch.md`, `44_stack_io_control.md` section 1): what a push leaves to be read, calls with
their returns, PUSH with POP, and the obligations O34, O35, O37. -/

namespace Sys2Proof

open Sys2Proof.Machine

/-! ### Decoding -/

theorem decode_push (rp : StackPair) :
    decode [BitVec.ofNat 8 (0xC5 + 16 * stackPairCode rp)] = .instr (.push rp) [] := by
  cases rp <;> rfl

end Sys2Proof

namespace Sys2Proof.Machine

/-! ### The stack in RAM -/

section StackInRam

variable {s : State} (hhigh : regionOf (s.sp - 1) = .ram) (hlow : regionOf (s.sp - 2) = .ram)

include hhigh hlow

/-- RET at the target of a call returns to the pushed address. -/
theorem pc_callTo_returnToCaller (n target : Word) : (s.callTo n target).returnToCaller.pc = s.pc + n :=
  State.memRead16_push16 (s.nextPc n) hhigh hlow

/-- POP after PUSH pops the pushed word. -/
theorem memRead16_push16_retire (v n : Word) : ((s.push16 v).retire n).memRead16 (s.sp - 2) = v :=
  State.memRead16_push16 v hhigh hlow

end StackInRam

/-- A call and its return leave SP where it was. -/
theorem sp_callTo_returnToCaller (s : State) (n target : Word) : (s.callTo n target).returnToCaller.sp = s.sp := by
  have hsp : (s.callTo n target).returnToCaller.sp = (s.callTo n target).sp + 2 := rfl
  rw [hsp, State.callTo_sp, BitVec.sub_add_cancel]

/-- A push changes no byte outside the two stack addresses. -/
theorem State.busRead_push16_of_ne {s : State} {addr : Word} (v : Word) (h1 : addr ≠ s.sp - 1) (h2 : addr ≠ s.sp - 2) :
    (s.push16 v).busRead addr = s.busRead addr := by
  have hread : (s.push16 v).busRead addr =
      ((s.busWrite (s.sp - 1) (highByte v)).busWrite (s.sp - 2) (lowByte v)).busRead addr :=
    State.busRead_congr rfl addr
  rw [hread, State.busRead_busWrite, if_neg fun h => h2 h.1, State.busRead_busWrite, if_neg fun h => h1 h.1]

/-- The low byte of a push, when its address is in RAM. -/
theorem State.busRead_push16_low {s : State} (v : Word) (h : regionOf (s.sp - 2) = .ram) :
    (s.push16 v).busRead (s.sp - 2) = lowByte v := by
  rw [State.memAfter_push16 s v, if_pos h, List.lookup_cons, beq_self_eq_true]
  rfl

/-- The high byte of a push: in ROM its address reads as before. -/
theorem State.busRead_push16_high (s : State) (v : Word) :
    (s.push16 v).busRead (s.sp - 1) = if regionOf (s.sp - 1) = .ram then highByte v else s.busRead (s.sp - 1) := by
  have hne : (s.sp - 1 == s.sp - 2) = false := beq_eq_false_iff_ne.mpr (by bv_omega)
  rw [State.memAfter_push16 s v, List.lookup_cons, hne, List.lookup_cons, beq_self_eq_true]
  rfl

/-! ### PUSH and POP -/

theorem exec_push (rp : StackPair) (s : State) :
    exec (.push rp) s = .next ((s.push16 (s.getStackPair rp)).retire 1) := rfl

theorem pushesWord_push16_retire (s : State) (v n : Word) : PushesWord v.toNat s ((s.push16 v).retire n) where
  mem := (pushesWord_push16 s v).mem
  sp := s.push16_sp v

theorem toNat_toByte (f : Flags) :
    f.toByte.toNat =
      128 * f.s.toNat + 64 * f.z.toNat + 16 * f.ac.toNat + 4 * f.p.toNat + 2 + f.cy.toNat := by
  have hs := Bool.toNat_le f.s
  have hz := Bool.toNat_le f.z
  have hac := Bool.toNat_le f.ac
  have hp := Bool.toNat_le f.p
  have hcy := Bool.toNat_le f.cy
  rw [Flags.toByte, BitVec.toNat_ofNat]
  omega

theorem toNat_psw (s : State) :
    s.psw.toNat = 256 * s.a.toNat + (128 * s.flags.s.toNat + 64 * s.flags.z.toNat + 16 * s.flags.ac.toNat +
      4 * s.flags.p.toNat + 2 + s.flags.cy.toNat) := by
  rw [State.psw, toNat_wordOf, toNat_toByte]

/-- Loading a pair with the word that it holds changes nothing. -/
theorem State.setStackPair_getStackPair (s : State) (rp : StackPair) : s.setStackPair rp (s.getStackPair rp) = s := by
  cases rp with
  | bc => simp [State.setStackPair, State.getStackPair, State.setBc, State.bc]
  | de => simp [State.setStackPair, State.getStackPair, State.setDe, State.de]
  | hl => simp [State.setStackPair, State.getStackPair, State.setHl, State.hl]
  | psw => simp [State.setStackPair, State.getStackPair, State.setPsw, State.psw]

@[simp] theorem State.getStackPair_push16 (s : State) (v : Word) (rp : StackPair) :
    (s.push16 v).getStackPair rp = s.getStackPair rp := by
  cases rp <;> simp [State.getStackPair, State.bc, State.de, State.hl, State.psw]

@[simp] theorem State.getStackPair_retire (s : State) (n : Word) (rp : StackPair) :
    (s.retire n).getStackPair rp = s.getStackPair rp := by
  cases rp <;> rfl

@[simp] theorem State.getStackPair_pop16 (s : State) (rp : StackPair) :
    s.pop16.2.getStackPair rp = s.getStackPair rp := by
  cases rp <;> rfl

@[simp] theorem State.getReg_pop16 (s : State) (r : Reg) : s.pop16.2.getReg r = s.getReg r := by
  cases r <;> rfl

@[simp] theorem State.pop16_flags (s : State) : s.pop16.2.flags = s.flags := rfl

@[simp] theorem State.pop16_sp (s : State) : s.pop16.2.sp = s.sp + 2 := rfl

@[simp] theorem State.pop16_pc (s : State) : s.pop16.2.pc = s.pc := rfl

/-- POP right after PUSH of the same pair moves SP and PC and nothing else: it loads the pair with the word that it
holds. -/
theorem exec_pop_of_pushed {rp : StackPair} {s : State} (hhigh : regionOf (s.sp - 1) = .ram)
    (hlow : regionOf (s.sp - 2) = .ram) :
    exec (.pop rp) ((s.push16 (s.getStackPair rp)).retire 1) =
      .next (((s.push16 (s.getStackPair rp)).retire 1).pop16.2.retire 1) := by
  have hword : ((s.push16 (s.getStackPair rp)).retire 1).memRead16 (s.sp - 2) =
      ((s.push16 (s.getStackPair rp)).retire 1).pop16.2.getStackPair rp := by
    rw [memRead16_push16_retire hhigh hlow, State.getStackPair_pop16, State.getStackPair_retire,
      State.getStackPair_push16]
  rw [exec_pop, State.retire_sp, State.push16_sp, hword, State.setStackPair_getStackPair]

/-- PUSH, then POP of the same pair. -/
theorem pushThenPop (rp : StackPair) (s : State) (hhigh : regionOf (s.sp - 1) = .ram)
    (hlow : regionOf (s.sp - 2) = .ram) :
    ∃ t, execAll [.push rp, .pop rp] s = some t ∧
      RegsKept [] s t ∧ t.flags = s.flags ∧ t.sp = s.sp ∧ t.pc = s.pc + 2 := by
  refine ⟨((s.push16 (s.getStackPair rp)).retire 1).pop16.2.retire 1, ?exec, ?regs, ?flags, ?sp, ?pc⟩
  case exec => simp only [execAll, exec_push, exec_pop_of_pushed hhigh hlow]
  case regs => exact fun r _ => by simp
  case flags => simp
  case sp => simp
  case pc => simp [BitVec.add_assoc]

/-- POP PSW and the word that PSW is afterwards, the flag byte with its fixed bits (`10_state.md` R15). -/
theorem exists_exec_pop_psw (s : State) :
    ∃ u, exec (.pop .psw) s = .next u ∧ u.sp = s.sp + 2 ∧ MemKept s u ∧
      u.psw = wordOf (s.busRead (s.sp + 1)) ((s.busRead s.sp &&& 0xD7) ||| 0x02) := by
  obtain ⟨hsp, -, hmem, -, -⟩ := setStackPair_pop16_retire_frame s .psw (s.memRead16 s.sp) 1
  refine ⟨_, exec_pop .psw s, hsp, hmem, ?_⟩
  rw [← Flags.toByte_ofByte, ← s.lowByte_memRead16 s.sp, ← s.highByte_memRead16 s.sp]
  rfl

/-- POP PSW, then PUSH PSW: A comes back to its address, which in ROM has kept it, and the flag byte with its fixed
bits. -/
theorem popThenPushPsw (s : State) (hram : regionOf s.sp = .ram) :
    ∃ t, execAll [.pop .psw, .push .psw] s = some t ∧ t.sp = s.sp ∧
      t.busRead s.sp = (s.busRead s.sp &&& 0xD7) ||| 0x02 ∧ t.busRead (s.sp + 1) = s.busRead (s.sp + 1) := by
  obtain ⟨u, hu, hsp, hmem, hpsw⟩ := exists_exec_pop_psw s
  have hlow : u.sp - 2 = s.sp := by rw [hsp, BitVec.add_sub_cancel]
  have hhigh : u.sp - 1 = s.sp + 1 := by bv_omega
  refine ⟨(u.push16 u.psw).retire 1, by simp only [execAll, hu, exec_push]; rfl, hlow, ?flagByte, ?acc⟩
  case flagByte =>
    have hread := State.busRead_push16_low u.psw (hlow.symm ▸ hram)
    rwa [hlow, hpsw, lowByte_wordOf, ← hpsw] at hread
  case acc =>
    have hread := State.busRead_push16_high u u.psw
    rw [hhigh, hpsw, highByte_wordOf, ← hpsw, hmem (s.sp + 1), ite_self] at hread
    exact hread

end Sys2Proof.Machine

namespace Sys2Proof

open Sys2Proof.Machine

/-! ### The obligations -/

/-- Settles O34: in RAM the word that RET pops is the one that CALL pushed. -/
theorem callThenReturn : Obligations.CallThenReturn := by
  intro addr s hhigh hlow
  refine ⟨_, rfl, pc_callTo_returnToCaller hhigh hlow 3 addr, sp_callTo_returnToCaller s 3 addr, ?regs, ?flags, ?mem⟩
  case regs =>
    intro r hr
    rw [State.getReg_returnToCaller, (controlTransfer_callTo s 3 addr).regs r hr]
  case flags => rw [State.returnToCaller_flags, State.callTo_flags]
  case mem =>
    intro a h1 h2
    rw [State.busRead_returnToCaller, State.busRead_callTo, State.busRead_push16_of_ne _ h1 h2]

/-- Settles O35: PUSH is `push16` of the word of the pair, by cases on the pair. -/
theorem pushPair : Obligations.PushPair := by
  intro rp s
  refine ⟨decode_push rp, _, exec_push rp s, ?word, (controlTransfer_push16 s _).regs, s.push16_flags _,
    congrArg (· + 1) (s.push16_pc _), (controlTransfer_push16 s _).system.retire 1⟩
  have hpush := pushesWord_push16_retire s (s.getStackPair rp) 1
  cases rp with
  | bc => exact (toNat_wordOf s.b s.c).symm ▸ hpush
  | de => exact (toNat_wordOf s.d s.e).symm ▸ hpush
  | hl => exact (toNat_wordOf s.h s.l).symm ▸ hpush
  | psw => exact (toNat_psw s).symm ▸ hpush

/-- Settles O37: the two orders of PUSH and POP. -/
theorem pushThenPopRestores : Obligations.PushThenPopRestores := ⟨pushThenPop, popThenPushPsw⟩

end Sys2Proof
end


section
/-! PROOFS. Ports, EI, HLT and the interrupt extension (`44_stack_io_control.md` sections 2 and 3, `60_exceptions.md`
section 2): when a request is accepted and what keeps it pending, and the obligations O40, O41, O43, O44, O53, O55. -/

namespace Sys2Proof.Machine

/-! ### Ports and the EI shadow -/

theorem exec_inp (port : Byte) (s : State) :
    exec (.inp port) s = .next ((s.setReg .a (s.portRead port)).retire 2) := rfl

theorem exec_outp (port : Byte) (s : State) : exec (.outp port) s = .next ((s.portWrite port s.a).retire 2) := rfl

/-- A machine in the EI shadow accepts nothing (`60_exceptions.md` R230). -/
theorem State.acceptable_setEiShadow (s : State) : s.setEiShadow.acceptable = none := by
  cases hext : s.intExt with
  | none => simp [State.acceptable, State.setEiShadow, hext]
  | some x => simp [State.acceptable, State.setEiShadow, hext]

/-! ### A pending request -/

/-- Nothing is accepted with INTE 0 or in the EI shadow (`60_exceptions.md` R229). -/
theorem State.acceptable_eq_none {s : State} {x : IntExt} (hext : s.intExt = some x)
    (h : s.inte = false ∨ x.eiShadow = true) : s.acceptable = none := by
  rw [State.acceptable, hext]
  obtain hinte | hshadow := h
  · simp [hinte]
  · simp [hshadow]

/-- A request is accepted with INTE 1 and no EI shadow. -/
theorem State.acceptable_eq_some {s : State} {n : Fin 8}
    (hext : s.intExt = some { pending := some n, eiShadow := false }) (hinte : s.inte = true) :
    s.acceptable = some n := by
  simp [State.acceptable, hext, hinte]

/-- An instruction never takes the request away. -/
theorem exec_pending {i : Instr} {s t : State} {x : IntExt} (hext : s.intExt = some x) (h : exec i s = .next t) :
    ∃ shadow, t.intExt = some { pending := x.pending, eiShadow := shadow } := by
  have ht := eiShadowAfterEveryInstruction i s t h
  rw [ht, hext]
  cases i with
  | ei => exact ⟨true, rfl⟩
  | illegal => exact ⟨x.eiShadow, rfl⟩
  | _ => exact ⟨false, rfl⟩

theorem State.getReg_acceptInterrupt (s : State) (n : Fin 8) (r : Reg) :
    (s.acceptInterrupt n).getReg r = s.getReg r := by
  cases r <;> simp [State.getReg]

/-- Acceptance pushes the address of the instruction not yet executed (`60_exceptions.md` R229). -/
theorem pushesWord_acceptInterrupt (s : State) (n : Fin 8) : PushesWord s.pc.toNat s (s.acceptInterrupt n) where
  mem := (pushesWord_push16 s s.pc).mem
  sp := s.acceptInterrupt_sp n

end Sys2Proof.Machine

namespace Sys2Proof

open Sys2Proof.Machine

/-! ### The obligations -/

/-- Settles O53: the tick is `acceptInterrupt`. -/
theorem interruptAcceptance : Obligations.InterruptAcceptance := by
  intro n s hrun hinte hext
  have haccept := State.acceptable_eq_some hext hinte
  refine ⟨_, step_of_acceptable hrun haccept, pushesWord_acceptInterrupt s n, toNat_restartVector n, rfl, ?ext, ?run,
    fun r _ => s.getReg_acceptInterrupt n r, ?flags, ?pin, ?pout, ?digits, ?key, tickResult_of_acceptable hrun haccept⟩
  case ext => rw [State.acceptInterrupt_intExt, hext]; rfl
  case run => rw [State.acceptInterrupt_run, hrun]
  all_goals simp

/-- Settles O55: such a tick is idle or executes an instruction, and neither takes the request away. -/
theorem requestStaysPending : Obligations.RequestStaysPending := by
  intro n shadow s t hext hblocked hstep
  obtain ⟨-, ht⟩ | ⟨m, hrun, haccept, -⟩ | ⟨-, ht⟩ := step_cases hstep
  · cases ht
    exact ⟨shadow, hext⟩
  · have hnone : s.acceptable = none :=
      State.acceptable_eq_none hext (hblocked.imp_right fun h => h.resolve_right (not_not_intro hrun))
    rw [hnone] at haccept
    cases haccept
  · exact exec_pending hext ht.symm

/-- Settles O41: OUT is `portWrite`, then `retire`. -/
theorem outputToPort : Obligations.OutputToPort := by
  intro port s
  refine ⟨_, exec_outp port s, (s.outputLatch_portWrite port · s.a), s.readDigit_portWrite port s.a, ?_⟩
  refine ⟨?pin, ?key, ?run, ?inte, ?ext, fun r _ => ?reg, ?sp, ?flags, fun addr => ?mem, ?pc⟩
  all_goals simp

/-- Settles O40: IN loads A with what `portRead` answers in the state that the host operation leaves. -/
theorem inputFromPort : Obligations.InputFromPort := by
  refine ⟨fun port s => ⟨_, exec_inp port s, loadsRegister_setReg_retire s .a (s.portRead port) 2⟩, ?_⟩
  intro s code port v
  refine ⟨⟨_, rfl, rfl⟩, ⟨_, rfl, rfl⟩, fun hport => ⟨_, exec_inp port _, ?_⟩⟩
  have hread : (s.setInputPort port v).portRead port = v := by
    have hlatch : (s.setInputPort port v).portRead port = (s.setInputPort port v).inputLatch port := if_neg hport
    rw [hlatch, State.setInputPort, State.inputLatch_setInputLatch, if_pos rfl]
  exact hread

/-- Settles O43: EI sets both, and a machine in the EI shadow accepts nothing. -/
theorem enableInterruptsShieldsOneInstruction : Obligations.EnableInterruptsShieldsOneInstruction := by
  intro s
  refine ⟨_, rfl, rfl, ?ext, rfl, rfl, rfl, rfl, rfl, ?regs, rfl, rfl, fun _ => rfl, rfl,
    State.acceptable_setEiShadow _⟩
  case ext => exact eiShadowAfterEveryInstruction .ei s _ rfl
  case regs =>
    intro r _
    cases r <;> rfl

/-- Settles O44: HLT writes the run state and retires; only an illegal byte is reported. -/
theorem haltInstruction : Obligations.HaltInstruction := by
  intro s
  refine ⟨_, rfl, rfl, rfl, rfl, rfl, rfl, rfl, rfl, rfl, ?regs, rfl, rfl, fun _ => rfl, fun hfetch => ?report⟩
  case regs =>
    intro r _
    cases r <;> rfl
  case report => exact tickResult_of_fetch fun op h => by cases hfetch.symm.trans h

end Sys2Proof
end


section
/-! PROOFS. Memory and the host interface (`20_memory.md`, `60_exceptions.md` section 6, `70_reset_and_hazards.md`):
reading after a store and after an image, sessions that stay canonical, and the obligations O23, O48, O56 to O60. -/

namespace Sys2Proof.Machine

/-! ### Reading memory -/

/-- The fetch of a one-byte instruction reads its opcode alone (`30_encoding.md` R70). -/
theorem fetch_of_decode_one {t : State} {op : Byte} {i : Instr} (hbyte : t.busRead t.pc = op)
    (h : decode [op] = .instr i []) : t.fetch = i := by
  rw [decode_cons] at h
  rw [State.fetch, hbyte]
  cases hshape : decodeOpcode op with
  | one j => rw [hshape] at h; cases h; rfl
  | two build => rw [hshape] at h; cases h
  | three build => rw [hshape] at h; cases h

/-- Every byte of memory after an image is stored from an address up, when it does not pass the end of memory. -/
theorem State.busRead_pokeAll (s : State) (base : Nat) (img : List Byte) (hfits : base + img.length ≤ 65536)
    (addr : Word) :
    (s.pokeAll base img).busRead addr =
      if base ≤ addr.toNat then (img[addr.toNat - base]?).getD (s.busRead addr) else s.busRead addr := by
  induction img generalizing s base with
  | nil => simp [State.pokeAll]
  | cons v rest ih =>
    rw [List.length_cons] at hfits
    rw [State.pokeAll, ih _ _ (by omega), State.busRead_poke]
    have haddr : addr = BitVec.ofNat 16 base ↔ addr.toNat = base := by
      rw [← BitVec.toNat_inj, BitVec.toNat_ofNat, Nat.mod_eq_of_lt (by omega)]
    simp only [haddr]
    rcases lt_trichotomy addr.toNat base with hlt | heq | hgt
    · rw [if_neg (by omega), if_neg (by omega), if_neg (by omega)]
    · rw [if_neg (by omega), if_pos heq, if_pos (by omega), heq, Nat.sub_self]
      rfl
    · have hsub : addr.toNat - base = addr.toNat - (base + 1) + 1 := by omega
      rw [if_pos (by omega), if_neg (by omega), if_pos (by omega), hsub, List.getElem?_cons_succ]

/-! ### Host operations -/

/-- Storing an image changes memory alone. -/
theorem State.pokeAll_eq (s : State) (addr : Nat) (img : List Byte) :
    s.pokeAll addr img = { s with mem := (s.pokeAll addr img).mem } := by
  induction img generalizing s addr with
  | nil => rfl
  | cons v rest ih => exact ih _ _

theorem State.Inv.pokeAll {s : State} (h : s.Inv) (addr : Nat) (img : List Byte) : (s.pokeAll addr img).Inv := by
  have hmem := Memory.wf_pokeAll addr img h.mem
  rw [State.pokeAll_eq] at hmem ⊢
  exact ⟨hmem, h.pin, h.pout⟩

theorem State.inv_create (intInput : Bool) : (State.create intInput).Inv := ⟨rfl, rfl, rfl⟩

/-- A session is canonical: when live, its state is. -/
def Session.Canonical : Session → Prop
  | .live s => s.Inv
  | .absent _ => True

theorem State.canonical_of_loadImage {s : State} {img : List Byte} {ss : Session} {out : HostResult} (h : s.Inv)
    (hstep : s.hostStep (.loadImage img) = .next (ss, out)) : ss.Canonical := by
  by_cases hlen : img.length > Config.romSize
  · simp only [State.hostStep, State.loadImage, if_pos hlen] at hstep
    cases hstep
    exact h
  · simp only [State.hostStep, State.loadImage, if_neg hlen] at hstep
    cases hstep
    exact h.pokeAll _ img

/-- Every operation on a live canonical session leaves a canonical session. -/
theorem State.canonical_of_hostStep {s : State} {op : HostOp} {ss : Session} {out : HostResult} (h : s.Inv)
    (hstep : s.hostStep op = .next (ss, out)) : ss.Canonical := by
  cases op with
  | create => cases hstep; exact State.inv_create _
  | free => cases hstep; exact trivial
  | tick =>
    obtain ⟨t, ht⟩ := step_completes s
    simp only [State.hostStep, ht] at hstep
    cases hstep
    exact tickKeepsCanonicalForm s t h ht
  | loadImage img => exact State.canonical_of_loadImage h hstep
  | setInputPort port v =>
    cases hstep
    exact ⟨h.mem, PortLatches.wf_setInputLatch port v h.pin, h.pout⟩
  | requestInterrupt n =>
    cases hext : s.intExt with
    | none => simp [State.hostStep, hext] at hstep
    | some x =>
      simp only [State.hostStep, hext] at hstep
      cases hstep
      exact ⟨h.mem, h.pin, h.pout⟩
  | stop | restart | pressKey | releaseKey | getOutputPort | getDisplayDigit | getProgramCounter =>
    cases hstep
    exact ⟨h.mem, h.pin, h.pout⟩

theorem Session.canonical_of_hostStep {ss ss' : Session} {op : HostOp} {out : HostResult} (h : ss.Canonical)
    (hstep : ss.hostStep op = .next (ss', out)) : ss'.Canonical := by
  cases ss with
  | live s => exact State.canonical_of_hostStep h hstep
  | absent intInput =>
    cases op with
    | create => cases hstep; exact State.inv_create intInput
    | _ => cases hstep

/-- A run that ends takes a first operation that completes, and then the rest. -/
theorem Session.run_cons {ss finish : Session} {op : HostOp} {rest : List HostOp} {outs : List HostResult}
    (h : ss.run (op :: rest) = .next (finish, outs)) :
    ∃ ss' out outs', ss.hostStep op = .next (ss', out) ∧ ss'.run rest = .next (finish, outs') := by
  rw [Session.run] at h
  split at h
  · cases h
  · cases h
  · next ss' out hstep =>
    split at h
    · next hrest =>
      cases h
      exact ⟨ss', out, _, hstep, hrest⟩
    · cases h
    · cases h

/-- Any sequence of operations leaves a canonical session canonical. -/
theorem Session.canonical_of_run {ops : List HostOp} {start finish : Session} {outs : List HostResult}
    (h : start.Canonical) (hrun : start.run ops = .next (finish, outs)) : finish.Canonical := by
  induction ops generalizing start outs with
  | nil => cases hrun; exact h
  | cons op rest ih =>
    obtain ⟨ss', out, outs', hstep, hrest⟩ := Session.run_cons hrun
    exact ih (Session.canonical_of_hostStep h hstep) hrest

end Sys2Proof.Machine

namespace Sys2Proof

open Sys2Proof.Machine

/-! ### The obligations -/

/-- Settles O60: `Session.Canonical` is kept by every operation. -/
theorem sessionsStayCanonical : Obligations.SessionsStayCanonical := by
  intro ops start finish outs hstart hrun t ht
  have hcanonical : start.Canonical := by
    cases start with
    | live s => exact hstart s rfl
    | absent intInput => exact trivial
  have hfinish := Session.canonical_of_run hcanonical hrun
  rwa [ht] at hfinish

/-- Settles O57: the stored byte is at the PC of the next fetch. -/
theorem storeSeenByNextFetch : Obligations.StoreSeenByNextFetch := by
  intro s i hhl hram hdecode
  have haddr : s.hl = s.pc + 1 := hhl
  have hstore := storesBytes_busWrite_retire s s.hl s.a 1
  refine ⟨(s.busWrite s.hl s.a).retire 1, rfl, hstore.pc, fetch_of_decode_one ?_ hdecode⟩
  rw [hstore.pc, State.busRead_retire, State.busRead_busWrite, haddr, if_pos ⟨rfl, hram⟩]

/-- Settles O58: a loaded image is stored byte by byte from 0x0000. -/
theorem loadImage : Obligations.LoadImage := by
  intro img s
  refine ⟨fun h => if_pos h, fun h => ⟨_, if_neg (not_lt.mpr h), ?frame, fun addr => ?read⟩⟩
  case frame =>
    rw [State.pokeAll_eq]
  case read =>
    have hfits : Config.romBase + img.length ≤ 65536 := by
      unfold Config.romBase
      omega
    exact (s.busRead_pokeAll Config.romBase img hfits addr).trans (if_pos (Nat.zero_le _))

/-- Settles O23: `wordOf` is the number of its two bytes, high byte first. -/
theorem pairsAreTheirRegisters : Obligations.PairsAreTheirRegisters := by
  intro s
  refine ⟨toNat_wordOf s.b s.c, toNat_wordOf s.d s.e, toNat_wordOf s.h s.l, rfl, ?_⟩
  rw [← toNat_wordOf, BitVec.ofNat_toNat, BitVec.setWidth_eq]
  rfl

/-- Settles O48: every field of the reset state is a constant, and no memory byte or latch is listed. -/
theorem resetState : Obligations.ResetState := by
  refine ⟨State.inv_create _, rfl, rfl, rfl, ?digits, rfl, rfl, ?regs, rfl, ?flags, fun _ => rfl, fun _ => ⟨rfl, rfl⟩⟩
  case digits =>
    intro i
    fin_cases i <;> rfl
  case regs =>
    intro r
    cases r <;> rfl
  case flags => decide

/-- Settles O56: the read-after-write laws of the Bus, the digits and the latches. -/
theorem readAfterWrite : Obligations.ReadAfterWrite := by
  intro s addr other i port v
  refine ⟨?ram, ?rom, ?other, (s.digits.get_set i · v), (s.inputLatch_setInputLatch port · v), fun _ => rfl⟩
  case ram => exact fun h => by rw [State.busRead_busWrite, if_pos ⟨rfl, (regionOf_eq_ram_iff addr).mpr h⟩]
  case rom => exact fun h => State.busWrite_rom ((regionOf_eq_rom_iff addr).mpr h)
  case other => exact fun h => by rw [State.busRead_busWrite, if_neg fun h' => h h'.1]

/-- Settles O59: both sides field by field, with and without the interrupt extension. -/
theorem restartResetsTheCpuOnly : Obligations.RestartResetsTheCpuOnly := by
  intro regs s
  cases hext : s.intExt with
  | none => simp [State.restartWith, State.powerOn, hext]
  | some x => simp [State.restartWith, State.powerOn, hext]

end Sys2Proof
end
